-- ==== Sys2Proof/Word.lean ====
section
/-!
DEFINITION. The words of the block and the plain value types that requests, tables and responses carry
(spec/00_scope.md R8, R10, R13 and spec/10_state.md R24, R25, R30, R34; spec/42_payload_build.md R112).
Types only: every function that a test could show wrong stands in `Sys2Proof/Decode.lean` or under
`Sys2Proof/Machine/`.
-/

namespace Sys2Proof

/-- `u8`: one payload byte, one address byte, one return code (00_scope.md R8). -/
abbrev Byte := BitVec 8

/-- `u32`: the identifier container and the value word of a payload (00_scope.md R8, 30_encoding.md R60, R63). -/
abbrev Word := BitVec 32

/-- `u16`: a register address, the key of the Register Table (10_state.md R24). -/
abbrev RegAddr := BitVec 16

/-- A finite sequence of characters (00_scope.md R13). -/
abbrev Text := List Char

/-- The four kinds of a register, in the order of 10_state.md R25. -/
inductive Kind where
  | roFloat
  | roInt
  | woFloat
  | woInt
deriving DecidableEq, Repr

/-- `options` of a register: labels by signed 32-bit value, a partial map kept as pairs with strictly
rising keys (10_state.md R24; decision D23). -/
abbrev OptionMap := List (Int × Text)

/-- RegisterDefinition (10_state.md R24). `address` is a field of its own beside the table's key, because
R182 of 70_reset_and_hazards.md says what happens in a table where the two differ. -/
structure RegDef where
  address     : RegAddr
  name        : Text
  kind        : Kind
  unit        : Option Text
  description : Text
  options     : Option OptionMap
deriving DecidableEq, Repr

/-- `REG_ROM`: a finite partial map from register address to definition, kept as pairs with strictly rising
keys (10_state.md R26). -/
abbrev RegTable := List (RegAddr × RegDef)

/-- `ALARM_ROM`: a total map from bit position 0 to 31 to a label (10_state.md R28, R29). -/
abbrev AlarmTable := Vector Text 32

/-- Exactly eight payload bytes, byte 0 first on the wire (10_state.md R30; 00_scope.md R10). -/
abbrev Payload := Vector Byte 8

/-- CanFrame: identifier container and payload (10_state.md R30). -/
structure CanFrame where
  id   : Word
  data : Payload
deriving DecidableEq, Repr

/-- `NUM`: the value operand of BUILD_PAYLOAD, and the value of a binary32 pattern
(42_payload_build.md R112; decision D14). -/
inductive Num where
  | fin (q : Rat)
  | negZero
  | posInf
  | negInf
  | nan
deriving DecidableEq, Repr

/-- The tags of a DecodedValue (10_state.md R34; decision D8). -/
inductive ValueTag where
  | float
  | enum
  | alarms
  | int
  | unknown
deriving DecidableEq, Repr

/-- DecodedValue: a tag and the 32-bit word of payload bytes 4 to 7 (10_state.md R34). -/
structure DecodedValue where
  tag  : ValueTag
  word : Word
deriving DecidableEq, Repr

/-- `Rounded`: the result of `ROUND2`; `hundredths n` is the number n/100 (43_decode_frame.md R127). -/
inductive Rounded where
  | hundredths (n : Int)
  | posInf
  | negInf
  | nan
deriving DecidableEq, Repr

/-- The four classes that byte 0 of a payload selects (30_encoding.md R65). -/
inductive FrameClass where
  | respOk
  | respDefaulted
  | respFail
  | command
deriving DecidableEq, Repr

end Sys2Proof
end

