-- ==== Sys2Proof/Config.lean ====
section
/-!
DEFINITION. The parameters of the model that 00_scope.md R7 lists, as plain data, and the free values: what the
spec leaves open, as constants without a body, of which nothing can be proved but what holds of every choice.
The values the spec gives as defaults stand in `Sys2Proof/Machine/Constants.lean` (`Params.defaults`).
-/

namespace Sys2Proof

/-- `ROUND2_TIE` (43_decode_frame.md R127 item 2): the default, or a choice left free word by word. -/
inductive TieRule where
  | awayFromZero
  | free
deriving DecidableEq, Repr

/-- How `F32_OF` treats a rational that binary32 cannot hold exactly (42_payload_build.md R112 item 3): the
default, or "one of the two binary32 neighbours", left free value by value. -/
inductive FloatRule where
  | nearestEven
  | neighbour
deriving DecidableEq, Repr

/-- How `I32_OF` makes an integer of a rational that is none (42_payload_build.md R113 item 2): the default, or
left free value by value. -/
inductive IntRule where
  | towardZero
  | free
deriving DecidableEq, Repr

/-- A plain hexadecimal style: the case of the digits, and eight digits or none that lead with zero. -/
structure HexStyle where
  upper  : Bool
  padded : Bool
deriving DecidableEq, Repr

/-- How `UNKNOWN_TEXT` writes its word in hexadecimal (44_text_forms.md R147): in a plain style, the default among
them, or as any hexadecimal rendering, left free word by word. -/
inductive HexForm where
  | plain (style : HexStyle)
  | free
deriving DecidableEq, Repr

/-- The parameters of 00_scope.md R7 that are plain data. `REG_ROM` and `ALARM_ROM` are fields of `State`;
`I32_OUT_OF_RANGE` is a function and stands below without a body. -/
structure Params where
  aw            : Nat
  plMax         : Nat
  roundTie      : TieRule
  floatRule     : FloatRule
  floatNan      : Word
  intRule       : IntRule
  unknownMarker : Text
  unknownHex    : HexForm
deriving DecidableEq, Repr

/-- Free value, notes/assumptions/5.md: the Register Table that the source does not list
(10_state.md R26; decision D11). -/
opaque Config.freeRegRom : RegTable

/-- Free value, notes/assumptions/6.md: the Alarm Bit Table that the source does not list
(10_state.md R29; decision D12). -/
opaque Config.freeAlarmRom : AlarmTable

/-- Free value, notes/assumptions/7.md: `I32_OUT_OF_RANGE`, "a total function of `value` alone, about which this
spec assumes nothing" (42_payload_build.md R113 item 3). -/
opaque Config.i32OutOfRange : Num → Word

/-- Free value, notes/assumptions/8.md: under `FloatRule.neighbour`, whether the neighbour of larger magnitude
is taken (42_payload_build.md R112 item 3). -/
opaque Config.f32TakesLarger : Rat → Bool

/-- Free value, notes/assumptions/9.md: under `IntRule.free`, the integer a non-integer is made into
(42_payload_build.md R113 item 2). -/
opaque Config.i32Truncated : Rat → Int

/-- Free value, notes/assumptions/10.md: under `TieRule.free`, whether a tie goes away from zero
(43_decode_frame.md R127 item 2). -/
opaque Config.round2TieAway : Word → Bool

/-- Free value, notes/assumptions/20.md: under `HexForm.free`, the hexadecimal rendering of a word; where this text is
none, the default rendering stands (44_text_forms.md R147). -/
opaque Config.unknownRendering : Word → Text

/-- Free value, notes/assumptions/11.md: the label RENDER_VALUE prints for the tag `VAL_ENUM` when the definition
it is given has no label for the word (44_text_forms.md R144 states none). -/
opaque Config.unstatedLabel : Option RegDef → Word → Text

end Sys2Proof
end

