-- ==== Sys2Proof/Machine/Constants.lean ====
section
/-!
DEFINITION. The hard-wired constants of the block (10_state.md R22) and the defaults the spec gives its parameters
(00_scope.md R7).
-/

namespace Sys2Proof.Machine

/-- `MXR_ID` (10_state.md R22). -/
def mxrId : BitVec 5 := 0x15

/-- `MODULE_TYPE` (10_state.md R22). -/
def moduleType : Byte := 0x81

/-- `MONITOR_ADDR` (10_state.md R22). -/
def monitorAddr : Byte := 0xA0

/-- `ALARM_REG` (10_state.md R22). -/
def alarmReg : RegAddr := 0x0100

/-- `RC_COMMAND` (10_state.md R22). -/
def rcCommand : Byte := 0x00

/-- `RC_OK` (10_state.md R22). -/
def rcOk : Byte := 0xF0

/-- `RC_DEFAULTED` (10_state.md R22). -/
def rcDefaulted : Byte := 0xF1

/-- `RC_FAIL` (10_state.md R22). -/
def rcFail : Byte := 0xF2

/-- The defaults of 00_scope.md R7: `AW` 8, `PL_MAX` 15, `ROUND2_TIE` away from zero (43_decode_frame.md R127),
round to nearest even and `F32_NAN` 0x7FC00000 (42_payload_build.md R112), truncation toward zero (R113),
`UNKNOWN_TEXT` "Unknown register: 0x" and eight upper-case digits (44_text_forms.md R147). -/
def defaultParams : Params where
  aw            := 8
  plMax         := 15
  roundTie      := .awayFromZero
  floatRule     := .nearestEven
  floatNan      := 0x7FC00000
  intRule       := .towardZero
  unknownMarker := "Unknown register: 0x".toList
  unknownHex    := .plain { upper := true, padded := true }

end Sys2Proof.Machine
end

