-- ==== Sys2Proof/Machine/Flags.lean ====
section
/-!
DEFINITION. The classification of the return/status code and what it annotates. The one flag of the block is the
`error` field of a DecodedFrame; none persists (10_state.md R23; 30_encoding.md R65; 43_decode_frame.md R122).
-/

namespace Sys2Proof.Machine

/-- The class of a return code (30_encoding.md R65). -/
def classOfCode (rc : Byte) : FrameClass :=
  if rc = rcFail then .respFail
  else if rc = rcDefaulted then .respDefaulted
  else if rc = rcOk then .respOk
  else .command

/-- `is_response` of a class (30_encoding.md R65). -/
def classIsResponse : FrameClass → Bool
  | .respOk => true
  | .respDefaulted => true
  | .respFail => true
  | .command => false

/-- `error` of a class (30_encoding.md R65). -/
def classError : FrameClass → Bool
  | .respOk => false
  | .respDefaulted => false
  | .respFail => true
  | .command => false

/-- `note` of a class (30_encoding.md R65; decision D26). -/
def classNote : FrameClass → BitVec 2
  | .respOk => 0
  | .respDefaulted => 1
  | .respFail => 2
  | .command => 0

/-- `err_desc` of a class (30_encoding.md R65; 43_decode_frame.md R122). -/
def classDescription : FrameClass → Text
  | .respOk => []
  | .respDefaulted => "F1: Forced to default value".toList
  | .respFail => "F2: Failure, discard frame".toList
  | .command => []

end Sys2Proof.Machine
end

