-- ==== Sys2Proof/Machine/Tables.lean ====
section
/-!
DEFINITION. The two read-only tables: kinds, labels, lookup, which tables are admissible, and the tables the block
holds from startup on (10_state.md R24 to R29; 40_register_table.md R90, R93; 70_reset_and_hazards.md R181, R182).
-/

namespace Sys2Proof.Machine

/-- `is_float(kind)` (10_state.md R25). -/
def kindIsFloat : Kind → Bool
  | .roFloat => true
  | .roInt => false
  | .woFloat => true
  | .woInt => false

/-- `is_writable(kind)` (10_state.md R25). -/
def kindIsWritable : Kind → Bool
  | .roFloat => false
  | .roInt => false
  | .woFloat => true
  | .woInt => true

/-- The code of a kind (10_state.md R25; decision D10). -/
def kindCode : Kind → BitVec 2
  | .roFloat => 0
  | .roInt => 1
  | .woFloat => 2
  | .woInt => 3

/-- The label `options` defines for a signed value, if it does; an absent map defines none (10_state.md R24). -/
def optionLabel (d : RegDef) (v : Int) : Option Text :=
  (d.options.getD []).lookup v

/-- `RegRom(a)`: the definition at exactly this address, or not found (40_register_table.md R90). -/
def regRomAt (t : RegTable) (a : RegAddr) : Option RegDef := t.lookup a

/-- `AlarmRom(i)`: the label of bit i (40_register_table.md R93). -/
def alarmRomAt (t : AlarmTable) (i : Fin 32) : Text := t[i]

/-- A map of labels is in its one form: keys strictly rising, each a signed 32-bit value (10_state.md R24). -/
def optionsCanonical (m : OptionMap) : Bool :=
  decide (m.Pairwise fun x y => x.1 < y.1) && m.all fun x => decide (-2 ^ 31 ≤ x.1 ∧ x.1 < 2 ^ 31)

/-- A table is in its one form: keys strictly rising, and so is every map of labels in it. -/
def tableCanonical (t : RegTable) : Bool :=
  decide (t.Pairwise fun x y => x.1 < y.1) && t.all fun x => optionsCanonical (x.2.options.getD [])

/-- Constraint 1 of 10_state.md R26: a definition's `address` is its own key. -/
def keysAgree (t : RegTable) : Bool := t.all fun x => x.2.address == x.1

/-- Constraints 2 to 6 of 10_state.md R26. The command register is read as one at another address than 0x0101
(notes/assumptions/12.md). -/
def tableFacts (t : RegTable) : Bool :=
  ((regRomAt t 0x0001).any fun d =>
      d.name == "Output Voltage".toList && kindIsFloat d.kind && d.unit == some "V".toList) &&
  ((regRomAt t alarmReg).any fun d => !kindIsFloat d.kind && (optionLabel d 5).isNone) &&
  ((regRomAt t 0x0101).any fun d =>
      d.name == "Status".toList && !kindIsFloat d.kind && optionLabel d 7 == some "Running".toList) &&
  (regRomAt t 0x9999).isNone &&
  (t.any fun x => x.1 != 0x0101 && !(x.2.options.getD []).isEmpty)

/-- An admissible Register Table (10_state.md R26, 70_reset_and_hazards.md R182). -/
def regRomAdmissible (t : RegTable) : Bool := tableCanonical t && keysAgree t && tableFacts t

/-- An admissible Alarm Bit Table (10_state.md R29). -/
def alarmRomAdmissible (t : AlarmTable) : Bool :=
  alarmRomAt t 0 == "Input Overvoltage".toList && alarmRomAt t 2 == "Output Overvoltage".toList

/-- `REG_ROM_MIN`, the spec's reference table (10_state.md R27). -/
def regRomMin : RegTable :=
  [ (0x0001, { address := 0x0001, name := "Output Voltage".toList, kind := .roFloat, unit := some "V".toList,
               description := [], options := none }),
    (0x0100, { address := 0x0100, name := "Alarm Bitmap".toList, kind := .roInt, unit := none,
               description := [], options := none }),
    (0x0101, { address := 0x0101, name := "Status".toList, kind := .roInt, unit := none,
               description := [], options := some [(7, "Running".toList)] }) ]

/-- The reference table with a command register added, so that it is admissible; it only shows that an admissible
table exists (notes/assumptions/5.md). -/
def regRomWitness : RegTable :=
  regRomMin ++ [(0x0200, { address := 0x0200, name := "Command".toList, kind := .woInt, unit := none,
                           description := [], options := some [(1, "On".toList)] })]

/-- `ALARM_ROM_MIN`, the spec's reference table (10_state.md R29). -/
def alarmRomMin : AlarmTable :=
  Vector.ofFn fun i =>
    if i = 0 then "Input Overvoltage".toList
    else if i = 2 then "Output Overvoltage".toList
    else "Bit ".toList ++ Nat.toDigits 10 i

/-- The Register Table the block holds from startup on: whichever admissible table the free value is
(10_state.md R26; notes/assumptions/5.md). -/
def initialRegRom : RegTable :=
  if regRomAdmissible Config.freeRegRom then Config.freeRegRom else regRomWitness

/-- The Alarm Bit Table the block holds from startup on: the free value, with the two labels the source gives
(10_state.md R29; notes/assumptions/6.md). -/
def initialAlarmRom : AlarmTable :=
  (Config.freeAlarmRom.set 0 "Input Overvoltage".toList).set 2 "Output Overvoltage".toList

end Sys2Proof.Machine
end

