-- ==== Sys2Proof/Machine/Operands.lean ====
section
/-!
DEFINITION. Byte order, access to a payload, the identifier's fields, and the two conversions of the value operand
(00_scope.md R9 to R12; 30_encoding.md R61; 42_payload_build.md R111 to R113; 43_decode_frame.md R127).
-/

namespace Sys2Proof.Machine

/-! ### Byte order and payload access -/

/-- `be16` (00_scope.md R10). -/
def be16 (b0 b1 : Byte) : BitVec 16 := b0 ++ b1

/-- `be32` (00_scope.md R10). -/
def be32 (b0 b1 b2 b3 : Byte) : Word := b0 ++ b1 ++ b2 ++ b3

/-- Byte k of a word, byte 0 the least significant: `v[8k+7 : 8k]` (00_scope.md R8). -/
def byteOf {n : Nat} (v : BitVec n) (k : Nat) : Byte := v.extractLsb' (8 * k) 8

/-- `MemRead(p, off, 1)` (00_scope.md R11). -/
def memRead8 (p : Payload) (off : Nat) (h : off + 1 ≤ 8 := by omega) : Byte := p[off]

/-- `MemRead(p, off, 2)` (00_scope.md R11). -/
def memRead16 (p : Payload) (off : Nat) (h : off + 2 ≤ 8 := by omega) : BitVec 16 := be16 p[off] p[off + 1]

/-- `MemRead(p, off, 4)` (00_scope.md R11). -/
def memRead32 (p : Payload) (off : Nat) (h : off + 4 ≤ 8 := by omega) : Word :=
  be32 p[off] p[off + 1] p[off + 2] p[off + 3]

/-- `MemWrite(p, off, 2, v)` (00_scope.md R11). -/
def memWrite16 (p : Payload) (off : Nat) (v : BitVec 16) (h : off + 2 ≤ 8 := by omega) : Payload :=
  (p.set off (byteOf v 1)).set (off + 1) (byteOf v 0)

/-- `MemWrite(p, off, 4, v)` (00_scope.md R11). -/
def memWrite32 (p : Payload) (off : Nat) (v : Word) (h : off + 4 ≤ 8 := by omega) : Payload :=
  (((p.set off (byteOf v 3)).set (off + 1) (byteOf v 2)).set (off + 2) (byteOf v 1)).set (off + 3) (byteOf v 0)

/-- The payload a byte sequence is, when its length is 8 (60_exceptions.md R161). -/
def payloadOf (pl : List Byte) : Option Payload :=
  if h : pl.length = 8 then some ⟨pl.toArray, by simpa using h⟩ else none

/-- The payload of the five fields of 30_encoding.md R63. -/
def payloadFields (code reserved : Byte) (reg : RegAddr) (word : Word) : Payload :=
  memWrite32 (memWrite16 #v[code, reserved, 0, 0, 0, 0, 0, 0] 2 reg) 4 word

/-! ### The identifier -/

/-- The identifier BUILD_ID makes of an address pair; operands are cut to 8 bits (30_encoding.md R61,
41_id_codec.md R100). -/
def buildIdWord (dst src : Nat) (srcDefault : Bool) : Word :=
  let s := if srcDefault then monitorAddr.toNat else src
  (mxrId.setWidth 32 <<< 24) ||| (moduleType.setWidth 32 <<< 16) |||
    ((BitVec.ofNat 32 (dst % 256)) <<< 8) ||| BitVec.ofNat 32 (s % 256)

/-- Identifier bits 28:24 (30_encoding.md R61). -/
def idMxrId (id : Word) : BitVec 5 := ((id >>> 24) &&& 0x1F).setWidth 5

/-- Identifier bits 23:16 (30_encoding.md R61). -/
def idModuleType (id : Word) : Byte := ((id >>> 16) &&& 0xFF).setWidth 8

/-- Identifier bits 15:8 (30_encoding.md R61). -/
def idDstAddr (id : Word) : Byte := ((id >>> 8) &&& 0xFF).setWidth 8

/-- Identifier bits 7:0 (30_encoding.md R61). -/
def idSrcAddr (id : Word) : Byte := (id &&& 0xFF).setWidth 8

/-! ### Integers -/

/-- `signed32` (00_scope.md R9). -/
def signed32 (w : Word) : Int := if w.toNat < 2 ^ 31 then w.toNat else w.toNat - 2 ^ 32

/-- `unsigned32` (00_scope.md R9), for a value in the range of `i32`. -/
def unsigned32 (s : Int) : Word := BitVec.ofNat 32 (if 0 ≤ s then s else s + 2 ^ 32).toNat

/-- The integer made of a rational (42_payload_build.md R113 items 1 and 2). -/
def integerOf (rule : IntRule) (q : Rat) : Int :=
  if q.den = 1 then q.num
  else match rule with
    | .towardZero => q.num.tdiv q.den
    | .free => Config.i32Truncated q

/-- `I32_OF` (42_payload_build.md R113). -/
def i32Of (P : Params) : Num → Word
  | .fin q =>
      let i := integerOf P.intRule q
      if -2 ^ 31 ≤ i ∧ i < 2 ^ 31 then unsigned32 i else Config.i32OutOfRange (.fin q)
  | .negZero => 0
  | .posInf => Config.i32OutOfRange .posInf
  | .negInf => Config.i32OutOfRange .negInf
  | .nan => Config.i32OutOfRange .nan

/-! ### Binary32 -/

/-- Bit 31 of a binary32 pattern (00_scope.md R12). -/
def f32Negative (w : Word) : Bool := w.getLsbD 31

/-- Bits 30:23 of a binary32 pattern (00_scope.md R12). -/
def f32Exponent (w : Word) : Nat := (w.extractLsb' 23 8).toNat

/-- Bits 22:0 of a binary32 pattern (00_scope.md R12). -/
def f32Fraction (w : Word) : Nat := (w.extractLsb' 0 23).toNat

/-- The significand of a finite pattern as an integer; the unit is 2 to the power `f32Scale w` - 150. -/
def f32Significand (w : Word) : Nat :=
  if f32Exponent w = 0 then f32Fraction w else 2 ^ 23 + f32Fraction w

/-- The exponent of a finite pattern, that of a subnormal being 1 (00_scope.md R12). -/
def f32Scale (w : Word) : Nat := max (f32Exponent w) 1

/-- `f32(w)`: the value of a binary32 pattern (00_scope.md R12). -/
def f32 (w : Word) : Num :=
  if f32Exponent w = 255 then
    if f32Fraction w ≠ 0 then .nan else if f32Negative w then .negInf else .posInf
  else if f32Negative w ∧ f32Significand w = 0 then .negZero
  else
    let m : Int := if f32Negative w then -(f32Significand w) else f32Significand w
    if 150 ≤ f32Scale w then .fin (mkRat (m * 2 ^ (f32Scale w - 150)) 1)
    else .fin (mkRat m (2 ^ (150 - f32Scale w)))

/-- The exponent k with 2^k ≤ n/d < 2^(k+1), for n and d positive. -/
def floorLog2 (n d : Nat) : Int :=
  let k : Int := (n.log2 : Int) - (d.log2 : Int)
  if d * 2 ^ k.toNat ≤ n * 2 ^ (-k).toNat then k else k - 1

/-- A magnitude against the binary32 grid: the pattern of the largest magnitude not above it, and how far it lies
beyond that pattern, `rest / unit` of the way to the next pattern. -/
structure GridPoint where
  pattern : Nat
  rest    : Nat
  unit    : Nat
deriving DecidableEq, Repr

/-- The place of n/d on the binary32 grid, for n and d positive. Above the range the pattern is that of the largest
finite magnitude and the rest is more than half, so that rounding to nearest overflows to the infinity
(42_payload_build.md R112 item 3). -/
def gridPoint (n d : Nat) : GridPoint :=
  let k := max (floorLog2 n d) (-126)
  if 127 < k then { pattern := 0x7F7FFFFF, rest := 2, unit := 3 }
  else
    let t := k - 23
    let a := n * 2 ^ (-t).toNat
    let b := d * 2 ^ t.toNat
    { pattern := (k + 126).toNat * 2 ^ 23 + a / b, rest := a % b, unit := b }

/-- The magnitude pattern chosen for a grid place (42_payload_build.md R112 items 1 and 3): the exact one where there
is one, else the lower or the upper neighbour. The pattern after the largest finite one is that of the infinity. -/
def chooseNeighbour (rule : FloatRule) (q : Rat) (g : GridPoint) : Nat :=
  if g.rest = 0 then g.pattern
  else
    let takesLarger := match rule with
      | .nearestEven => decide (g.unit < 2 * g.rest ∨ (2 * g.rest = g.unit ∧ g.pattern % 2 = 1))
      | .neighbour => Config.f32TakesLarger q
    if takesLarger then g.pattern + 1 else g.pattern

/-- The magnitude pattern of a rational, without its sign. -/
def f32Magnitude (rule : FloatRule) (q : Rat) : Nat :=
  if q.num = 0 then 0 else chooseNeighbour rule q (gridPoint q.num.natAbs q.den)

/-- `F32_OF` (42_payload_build.md R112). -/
def f32Of (P : Params) : Num → Word
  | .fin q => BitVec.ofNat 32 ((if q.num < 0 then 2 ^ 31 else 0) + f32Magnitude P.floatRule q)
  | .negZero => 0x80000000
  | .posInf => 0x7F800000
  | .negInf => 0xFF800000
  | .nan => P.floatNan

/-- A NaN pattern: exponent 255, fraction not zero (42_payload_build.md R112 item 4). -/
def isNanPattern (w : Word) : Bool := f32Exponent w == 255 && f32Fraction w != 0

/-- `WIRE_WORD` (42_payload_build.md R111). -/
def wireWordOf (P : Params) (value : Num) (isFloat : Bool) : Word :=
  if isFloat then f32Of P value else i32Of P value

/-! ### Rounding to two decimal digits -/

/-- Whether a tie goes away from zero (43_decode_frame.md R127 item 2). -/
def tieGoesAway (rule : TieRule) (w : Word) : Bool :=
  match rule with
  | .awayFromZero => true
  | .free => Config.round2TieAway w

/-- The nearest integer to n/d, a tie decided by `away`. -/
def nearest (n d : Nat) (away : Bool) : Nat :=
  if 2 * (n % d) < d ∨ (2 * (n % d) = d ∧ !away) then n / d else n / d + 1

/-- `ROUND2` (43_decode_frame.md R127). -/
def round2 (P : Params) (w : Word) : Rounded :=
  if f32Exponent w = 255 then
    if f32Fraction w ≠ 0 then .nan else if f32Negative w then .negInf else .posInf
  else
    let m := nearest (100 * f32Significand w * 2 ^ (f32Scale w - 150)) (2 ^ (150 - f32Scale w))
      (tieGoesAway P.roundTie w)
    .hundredths (if f32Negative w then -m else m)

end Sys2Proof.Machine
end

