-- ==== Sys2Proof/Syntax.lean ====
section
/-!
DEFINITION. The operations of the block: one constructor for each row of spec/opcode_table.json
(30_encoding.md R70, R76; 00_scope.md R2).
-/

namespace Sys2Proof

/-- The operations. Group REQ: `lookup` to `reservedOp`. Group PSEUDO: `buildIdDefault`. Group FRAME96: the four
frame classes, each with the fields of the 96-bit form that its pattern leaves free (30_encoding.md R66, R67).
Group TEXT: the four text functions, which have no selector. -/
inductive Instr where
  /-- LOOKUP addr (40_register_table.md R90). -/
  | lookup (addr : RegAddr)
  /-- BUILD_ID dst, src: the form with `src_default = 0` (41_id_codec.md R100). The form with `src_default = 1`
  is the table's own row BUILD_ID.default, the constructor `buildIdDefault`. -/
  | buildId (dst src : Nat)
  /-- PARSE_ID id (41_id_codec.md R102). -/
  | parseId (id : Word)
  /-- BUILD_PAYLOAD addr, value, is_float (42_payload_build.md R110). -/
  | buildPayload (addr : RegAddr) (value : Num) (isFloat : Bool)
  /-- DECODE_FRAME id, pl (43_decode_frame.md R120). -/
  | decodeFrame (id : Word) (pl : List Byte)
  /-- FRAME_TO_DISPLAY id, pl (44_text_forms.md R142). -/
  | frameToDisplay (id : Word) (pl : List Byte)
  /-- The selectors 0b110 and 0b111; `x` is their lowest bit (30_encoding.md R71). -/
  | reservedOp (x : BitVec 1)
  /-- BUILD_ID dst with the source left out, `src_default = 1` (30_encoding.md R74). -/
  | buildIdDefault (dst : Nat)
  /-- A wire frame whose byte 0 is 0xF0 (30_encoding.md R67). -/
  | respOk (id : Word) (reserved : Byte) (reg : RegAddr) (word : Word)
  /-- A wire frame whose byte 0 is 0xF1 (30_encoding.md R67). -/
  | respDefaulted (id : Word) (reserved : Byte) (reg : RegAddr) (word : Word)
  /-- A wire frame whose byte 0 is 0xF2 (30_encoding.md R67). -/
  | respFail (id : Word) (reserved : Byte) (reg : RegAddr) (word : Word)
  /-- A wire frame whose byte 0 is any other value, `code` (30_encoding.md R67). -/
  | command (id : Word) (code reserved : Byte) (reg : RegAddr) (word : Word)
  /-- HEX_BYTES of a byte sequence (44_text_forms.md R140). -/
  | hexBytes (bytes : List Byte)
  /-- RENDER_VALUE of a decoded value and the definition when found (44_text_forms.md R144). -/
  | renderValue (value : DecodedValue) (definition : Option RegDef)
  /-- ALARM_TEXT of a bitmap (44_text_forms.md R146). -/
  | alarmText (word : Word)
  /-- PARSE_TRANSCRIPT of a text (44_text_forms.md R150). -/
  | parseTranscript (text : Text)
deriving DecidableEq, Repr

end Sys2Proof
end

