-- ==== Sys2Proof/WellFormed.lean ====
section
/-!
DEFINITION. The well-formed operations: those whose operands fit the fields a request or a wire frame gives them
(10_state.md R32; 30_encoding.md R65, R67).
-/

namespace Sys2Proof

/-- Why an operation is not well formed. -/
inductive IllFormed where
  /-- An address operand of BUILD_ID does not fit in `AW` bits (10_state.md R32). -/
  | addressTooWide
  /-- A payload operand is longer than `PL_MAX` (10_state.md R32). -/
  | payloadTooLong
  /-- A COMMAND frame whose byte 0 is one of the three response codes (30_encoding.md R67). -/
  | responseCode
deriving DecidableEq, Repr

/-- The first defect of an operation, if it has one, under the parameters `P`. -/
def Instr.defect (P : Params) : Instr → Option IllFormed
  | .lookup _ => none
  | .buildId dst src => if dst < 2 ^ P.aw ∧ src < 2 ^ P.aw then none else some .addressTooWide
  | .parseId _ => none
  | .buildPayload _ _ _ => none
  | .decodeFrame _ pl => if pl.length ≤ P.plMax then none else some .payloadTooLong
  | .frameToDisplay _ pl => if pl.length ≤ P.plMax then none else some .payloadTooLong
  | .reservedOp _ => none
  | .buildIdDefault dst => if dst < 2 ^ P.aw then none else some .addressTooWide
  | .respOk _ _ _ _ => none
  | .respDefaulted _ _ _ _ => none
  | .respFail _ _ _ _ => none
  | .command _ code _ _ _ => if code = 0xF0 ∨ code = 0xF1 ∨ code = 0xF2 then some .responseCode else none
  | .hexBytes _ => none
  | .renderValue _ _ => none
  | .alarmText _ => none
  | .parseTranscript _ => none

/-- An operation without defect. -/
abbrev Instr.WellFormed (P : Params) (i : Instr) : Prop := i.defect P = none

end Sys2Proof
end

