-- ==== Sys2Proof/Decode.lean ====
section
/-!
DEFINITION. What the requester can present to the block, the decoder from it to an operation (total; it rejects by
name), and the encoder. A request is the record of fields of 10_state.md R32 with its 3-bit selector
(30_encoding.md R70); a wire frame is the 96-bit form of R66; the text functions have no encoding and are named
(R76). notes/assumptions/2.md says what of this is the model's choice.
-/

namespace Sys2Proof

/-- One request: every field of 10_state.md R32, each present whatever the operation reads. -/
structure Request where
  op         : BitVec 3
  addr       : RegAddr
  dst        : Nat
  src        : Nat
  srcDefault : Bool
  id         : Word
  value      : Num
  isFloat    : Bool
  pl         : List Byte
deriving DecidableEq, Repr

/-- A call of a text function, which has no selector (30_encoding.md R76). -/
inductive TextCall where
  | hexBytes (bytes : List Byte)
  | renderValue (value : DecodedValue) (definition : Option RegDef)
  | alarmText (word : Word)
  | parseTranscript (text : Text)
deriving DecidableEq, Repr

/-- What a requester presents: a request, the 12-byte wire form of a frame (30_encoding.md R66), or a call of a
text function. -/
inductive Input where
  | request (r : Request)
  | wire (f : BitVec 96)
  | call (c : TextCall)
deriving DecidableEq, Repr

/-- The request with selector `op` and every other field zero or empty. -/
def Request.zeros (op : BitVec 3) : Request where
  op := op
  addr := 0
  dst := 0
  src := 0
  srcDefault := false
  id := 0
  value := .fin 0
  isFloat := false
  pl := []

/-- One row of the frame-class table: a 96-bit mask and the pattern under it (30_encoding.md R67). -/
structure FrameRow where
  frameClass : FrameClass
  mask       : BitVec 96
  pattern    : BitVec 96
deriving DecidableEq, Repr

/-- The frame-class table in its order of testing; the last row matches everything (30_encoding.md R67). -/
def frameRows : List FrameRow :=
  [ ⟨.respOk,        0x00000000FF00000000000000, 0x00000000F000000000000000⟩,
    ⟨.respDefaulted, 0x00000000FF00000000000000, 0x00000000F100000000000000⟩,
    ⟨.respFail,      0x00000000FF00000000000000, 0x00000000F200000000000000⟩,
    ⟨.command,       0x000000000000000000000000, 0x000000000000000000000000⟩ ]

/-- Whether a frame matches a row. -/
def FrameRow.fits (row : FrameRow) (f : BitVec 96) : Bool := f &&& row.mask == row.pattern

/-- The class of a wire frame: that of the first row that matches (30_encoding.md R67). -/
def frameClassOf (f : BitVec 96) : FrameClass :=
  ((frameRows.find? fun row => row.fits f).map FrameRow.frameClass).getD .command

/-- Bits 95:64 of the wire form: the identifier container (30_encoding.md R66). -/
def wireId (f : BitVec 96) : Word := f.extractLsb' 64 32

/-- Bits 63:56 of the wire form: payload byte 0 (30_encoding.md R66). -/
def wireCode (f : BitVec 96) : Byte := f.extractLsb' 56 8

/-- Bits 55:48 of the wire form: payload byte 1 (30_encoding.md R66). -/
def wireReserved (f : BitVec 96) : Byte := f.extractLsb' 48 8

/-- Bits 47:32 of the wire form: the register address (30_encoding.md R66). -/
def wireReg (f : BitVec 96) : RegAddr := f.extractLsb' 32 16

/-- Bits 31:0 of the wire form: the value word (30_encoding.md R66). -/
def wireWord (f : BitVec 96) : Word := f.extractLsb' 0 32

/-- The operation a request names, before its operands are checked (30_encoding.md R70, R71, R74). An operation
takes the fields its rule names and ignores the rest (10_state.md R32). -/
def selectOp (r : Request) : Instr :=
  if r.op = 0 then .lookup r.addr
  else if r.op = 1 then (if r.srcDefault then .buildIdDefault r.dst else .buildId r.dst r.src)
  else if r.op = 2 then .parseId r.id
  else if r.op = 3 then .buildPayload r.addr r.value r.isFloat
  else if r.op = 4 then .decodeFrame r.id r.pl
  else if r.op = 5 then .frameToDisplay r.id r.pl
  else .reservedOp (r.op.extractLsb' 0 1)

/-- The operation a wire frame stands for (30_encoding.md R67). -/
def selectFrame (f : BitVec 96) : Instr :=
  match frameClassOf f with
  | .respOk => .respOk (wireId f) (wireReserved f) (wireReg f) (wireWord f)
  | .respDefaulted => .respDefaulted (wireId f) (wireReserved f) (wireReg f) (wireWord f)
  | .respFail => .respFail (wireId f) (wireReserved f) (wireReg f) (wireWord f)
  | .command => .command (wireId f) (wireCode f) (wireReserved f) (wireReg f) (wireWord f)

/-- The operation a call of a text function names (30_encoding.md R76). -/
def selectCall : TextCall → Instr
  | .hexBytes bytes => .hexBytes bytes
  | .renderValue value definition => .renderValue value definition
  | .alarmText word => .alarmText word
  | .parseTranscript text => .parseTranscript text

/-- The operation an input names, before its operands are checked. -/
def select : Input → Instr
  | .request r => selectOp r
  | .wire f => selectFrame f
  | .call c => selectCall c

/-- The decoder: total, and it rejects by name an operand its field cannot hold (10_state.md R32). -/
def decode (P : Params) (p : Input) : Except IllFormed Instr :=
  match (select p).defect P with
  | none => .ok (select p)
  | some e => .error e

/-- The 96-bit wire form of five fields (30_encoding.md R66). -/
def wireForm (id : Word) (code reserved : Byte) (reg : RegAddr) (word : Word) : BitVec 96 :=
  id ++ code ++ reserved ++ reg ++ word

/-- The encoder: the input that names an operation; fields the operation does not read are zero or empty
(30_encoding.md R66, R67, R70, R71, R74). -/
def encode : Instr → Input
  | .lookup addr => .request { Request.zeros 0 with addr := addr }
  | .buildId dst src => .request { Request.zeros 1 with dst := dst, src := src }
  | .parseId id => .request { Request.zeros 2 with id := id }
  | .buildPayload addr value isFloat =>
      .request { Request.zeros 3 with addr := addr, value := value, isFloat := isFloat }
  | .decodeFrame id pl => .request { Request.zeros 4 with id := id, pl := pl }
  | .frameToDisplay id pl => .request { Request.zeros 5 with id := id, pl := pl }
  | .reservedOp x => .request (Request.zeros (0b11#2 ++ x))
  | .buildIdDefault dst => .request { Request.zeros 1 with dst := dst, srcDefault := true }
  | .respOk id reserved reg word => .wire (wireForm id 0xF0 reserved reg word)
  | .respDefaulted id reserved reg word => .wire (wireForm id 0xF1 reserved reg word)
  | .respFail id reserved reg word => .wire (wireForm id 0xF2 reserved reg word)
  | .command id code reserved reg word => .wire (wireForm id code reserved reg word)
  | .hexBytes bytes => .call (.hexBytes bytes)
  | .renderValue value definition => .call (.renderValue value definition)
  | .alarmText word => .call (.alarmText word)
  | .parseTranscript text => .call (.parseTranscript text)

/-- The input whose bits, numbered as spec/opcode_table.json numbers them, are `w`. A row of the groups REQ and
PSEUDO has the three bits of `op` (its width is 3, so one byte, of which the selector is bits 2:0) and every
operand zero or empty; a row of the group FRAME96 is the 96-bit form. No other width occurs. -/
def tableInput (nbits w : Nat) : Option Input :=
  if nbits = 96 then some (.wire (BitVec.ofNat 96 w))
  else if nbits ≤ 8 then some (.request (Request.zeros (BitVec.ofNat 3 w)))
  else none

/-- The operation the decoder reads from an opcode-table word, under the default parameters (the operands such a
word can give fit every field). -/
def decodeTableWord (nbits w : Nat) : Option Instr :=
  match tableInput nbits w with
  | none => none
  | some p => (decode Machine.defaultParams p).toOption

end Sys2Proof
end

