-- ==== Sys2Proof/Machine/State.lean ====
section
/-!
DEFINITION. What the block holds, what it answers, and the two ways a step can stop (10_state.md R20 to R38;
60_exceptions.md R160). The block has no registers, no program counter, no flags, no control registers and no
writable memory (R20, R21, R23, R35, R36); what it has is constant: parameters and two tables. `pending` and
`responses` are the model's own (notes/assumptions/1.md): the requests presented and not yet answered, and the
responses given.
-/

namespace Sys2Proof.Machine

/-- The three fault causes with what each records (60_exceptions.md R160). -/
inductive FaultCause where
  /-- DECODE_FRAME on a payload whose length is not 8; records the length (60_exceptions.md R161). -/
  | malformedPayload (length : Nat)
  /-- A request whose selector is 6 or 7; records the selector (60_exceptions.md R162). -/
  | illegalOp (op : BitVec 3)
  /-- PARSE_TRANSCRIPT on a text that is no transcript; records nothing (60_exceptions.md R163). -/
  | formatError
deriving DecidableEq, Repr

/-- The answer of LOOKUP when the address is in the table (10_state.md R33). -/
structure Found where
  definition : RegDef
  isFloat    : Bool
  isWritable : Bool
deriving DecidableEq, Repr

/-- The four identifier sub-fields, the answer of PARSE_ID (10_state.md R33). -/
structure IdFields where
  mxrId      : BitVec 5
  moduleType : Byte
  dstAddr    : Byte
  srcAddr    : Byte
deriving DecidableEq, Repr

/-- DecodedFrame (10_state.md R31), its four identifier sub-fields under `idFields`. `found` and the presence of
`definition` are two fields, as in the spec. -/
structure DecodedFrame where
  idFields   : IdFields
  reg        : RegAddr
  rawHex     : Text
  value      : DecodedValue
  error      : Bool
  errDesc    : Text
  retCode    : Byte
  isResponse : Bool
  note       : BitVec 2
  found      : Bool
  definition : Option RegDef
deriving DecidableEq, Repr

/-- The document's decoded value, "either a number or a descriptive string" (44_text_forms.md R144). -/
inductive Rendered where
  | rounded (n : Rounded)
  | int (n : Int)
  | text (t : Text)
deriving DecidableEq, Repr

/-- One response (10_state.md R33; for the text functions 44_text_forms.md R140, R144, R146, R150). A fault is a
response without result fields. -/
inductive Response where
  /-- LOOKUP: `found` with the definition and its two predicates, or not found. -/
  | lookup (found : Option Found)
  /-- BUILD_ID. -/
  | ident (id : Word)
  /-- PARSE_ID. -/
  | idFields (f : IdFields)
  /-- BUILD_PAYLOAD. -/
  | payload (pl : Payload)
  /-- DECODE_FRAME. -/
  | frame (f : DecodedFrame)
  /-- FRAME_TO_DISPLAY, HEX_BYTES and ALARM_TEXT. -/
  | text (t : Text)
  /-- RENDER_VALUE. -/
  | rendered (r : Rendered)
  /-- PARSE_TRANSCRIPT. -/
  | canFrame (f : CanFrame)
  /-- `raise F(info)`: the fault alone (60_exceptions.md R164). -/
  | fault (c : FaultCause)
deriving DecidableEq, Repr

/-- Why a step stops with a fault of the model. None of the block's own faults is here: those are answered
(60_exceptions.md R164) and the block goes on. -/
inductive Fault where
  /-- Raised by `step` alone, for an input that no request port can present: an address wider than `AW` or a
  payload longer than `PL_MAX` (10_state.md R32). Safe: no such request exists. -/
  | notPresentable (e : IllFormed)
deriving DecidableEq, Repr

/-- Why a step has no meaning. -/
inductive Refusal where
  /-- Raised by `exec` for an operation that has no meaning yet. Safe. No arm of `exec` raises it now. -/
  | notModelled (mnemonic : String)
  /-- Raised by FRAME_TO_DISPLAY on a payload of this length, which is not 8: "This spec gives such a request no
  meaning: a model refuses it" (44_text_forms.md R143; decision D28). Safe. -/
  | displayOfNonFrame (length : Nat)
deriving DecidableEq, Repr

/-- The state of the block. -/
structure State where
  /-- The parameters with defaults (00_scope.md R7); no operation changes them. -/
  params    : Params
  /-- `REG_ROM` (10_state.md R26, R38); no operation changes it. -/
  regRom    : RegTable
  /-- `ALARM_ROM` (10_state.md R29, R38); no operation changes it. -/
  alarmRom  : AlarmTable
  /-- The model's own: what has been presented and not answered, the next first. -/
  pending   : List Input
  /-- The model's own: the responses given, the first first. No operation reads them (10_state.md R21). -/
  responses : List Response
deriving DecidableEq, Repr

/-- The block at startup: tables with their full contents, no request and no response (10_state.md R37;
70_reset_and_hazards.md R180, R181). -/
def State.reset : State where
  params := defaultParams
  regRom := initialRegRom
  alarmRom := initialAlarmRom
  pending := []
  responses := []

end Sys2Proof.Machine
end

