-- ==== Sys2Proof/Machine/TextForms.lean ====
section
/-!
DEFINITION. The strings the spec fixes, as functions (00_scope.md R13; 44_text_forms.md R140 to R152).
-/

namespace Sys2Proof.Machine

/-- The hexadecimal digit of a value below 16 (00_scope.md R13). -/
def hexDigit (upper : Bool) (n : Nat) : Char :=
  if n < 10 then Char.ofNat (48 + n) else Char.ofNat ((if upper then 55 else 87) + n)

/-- Exactly k hexadecimal digits of n, most significant first. -/
def hexFixed (upper : Bool) : Nat → Nat → Text
  | 0, _ => []
  | k + 1, n => hexFixed upper k (n / 16) ++ [hexDigit upper (n % 16)]

/-- `HEX2` (00_scope.md R13). -/
def hex2 (b : Byte) : Text := hexFixed true 2 b.toNat

/-- `HEX8` (00_scope.md R13). -/
def hex8 (w : Word) : Text := hexFixed true 8 w.toNat

/-- `DEC` (00_scope.md R13; decision D16). -/
def dec (n : Int) : Text :=
  if n < 0 then '-' :: Nat.toDigits 10 n.natAbs else Nat.toDigits 10 n.natAbs

/-- `join` (00_scope.md R13). -/
def join (sep : Text) : List Text → Text
  | [] => []
  | [t] => t
  | t :: u :: rest => t ++ sep ++ join sep (u :: rest)

/-- `HEX_BYTES` (44_text_forms.md R140). -/
def hexBytesText (p : List Byte) : Text := join [' '] (p.map hex2)

/-- The display string of a frame (44_text_forms.md R142). -/
def displayText (id : Word) (p : Payload) : Text :=
  "ID: 0x".toList ++ hex8 id ++ "  DATA: ".toList ++ hexBytesText p.toList

/-- The set bit positions of a bitmap, ascending (44_text_forms.md R146). -/
def setPositions (word : Word) : List (Fin 32) := (List.finRange 32).filter fun i => word.getLsbD i

/-- `ALARM_TEXT` (44_text_forms.md R146). -/
def alarmTextOf (t : AlarmTable) (word : Word) : Text :=
  if word = 0 then "No Alarms".toList
  else join ", ".toList ((setPositions word).map (alarmRomAt t))

/-- The hexadecimal digits of n without leading zeros. -/
def hexShort (upper : Bool) (n : Nat) : Text := hexFixed upper (n.log2 / 4 + 1) n

/-- The value of a hexadecimal digit in either case, if the character is one (44_text_forms.md R150). -/
def hexValue (c : Char) : Option (BitVec 4) :=
  if '0' ≤ c ∧ c ≤ '9' then some (BitVec.ofNat 4 (c.toNat - 48))
  else if 'A' ≤ c ∧ c ≤ 'F' then some (BitVec.ofNat 4 (c.toNat - 55))
  else if 'a' ≤ c ∧ c ≤ 'f' then some (BitVec.ofNat 4 (c.toNat - 87))
  else none

/-- The values of the hexadecimal digits of a text, in order; other characters (a space between bytes, the "x" of a
prefix) are passed over. -/
def hexDigitsIn (t : Text) : List (BitVec 4) := t.filterMap hexValue

/-- The number that a sequence of digit values is, the first the most significant. -/
def hexNumber (digits : List (BitVec 4)) : Nat := digits.foldl (fun n d => 16 * n + d.toNat) 0

/-- Whether a text is a hexadecimal rendering of a word read as unsigned: it has digits, and they read as the word,
whatever their case and number and whatever stands between them (44_text_forms.md R147; notes/assumptions/20.md). -/
def rendersHex (t : Text) (word : Word) : Bool :=
  !(hexDigitsIn t).isEmpty && hexNumber (hexDigitsIn t) == word.toNat

/-- A word in a plain hexadecimal style. -/
def plainHex (style : HexStyle) (word : Word) : Text :=
  if style.padded then hexFixed style.upper 8 word.toNat else hexShort style.upper word.toNat

/-- The hexadecimal rendering of a word that `UNKNOWN_TEXT` ends with (44_text_forms.md R147). -/
def unknownHexText (form : HexForm) (word : Word) : Text :=
  match form with
  | .plain style => plainHex style word
  | .free =>
      if rendersHex (Config.unknownRendering word) word then Config.unknownRendering word else hex8 word

/-- `UNKNOWN_TEXT`: a fixed marker, then a hexadecimal rendering of the word (44_text_forms.md R147). -/
def unknownText (P : Params) (word : Word) : Text := P.unknownMarker ++ unknownHexText P.unknownHex word

/-- The label RENDER_VALUE prints for `VAL_ENUM`; where the definition has none, a free value
(44_text_forms.md R144; notes/assumptions/11.md). -/
def enumLabel (definition : Option RegDef) (word : Word) : Text :=
  match definition.bind fun d => optionLabel d (signed32 word) with
  | some label => label
  | none => Config.unstatedLabel definition word

/-- `RENDER_VALUE` (44_text_forms.md R144). -/
def renderValueOf (P : Params) (t : AlarmTable) (value : DecodedValue) (definition : Option RegDef) : Rendered :=
  match value.tag with
  | .float => .rounded (round2 P value.word)
  | .enum => .text (dec (signed32 value.word) ++ " (".toList ++ enumLabel definition value.word ++ ")".toList)
  | .alarms => .text (alarmTextOf t value.word)
  | .int => .int (signed32 value.word)
  | .unknown => .text (unknownText P value.word)

/-! ### The transcript -/

/-- Whitespace: space, tab, carriage return, line feed (44_text_forms.md R151). -/
def isBlank (c : Char) : Bool := c == ' ' || c == '\t' || c == '\r' || c == '\n'

/-- The tokens of a text: its longest runs without whitespace (44_text_forms.md R150). -/
def tokens (t : Text) : List Text := (t.splitOnP isBlank).filter fun u => !u.isEmpty

/-- A token less one leading "0x" or "0X" (44_text_forms.md R150). -/
def dropMark : Text → Text
  | '0' :: 'x' :: rest => rest
  | '0' :: 'X' :: rest => rest
  | t => t

/-- The bytes of a sequence of digit values, two a byte, the first the more significant; none when one is left
over. -/
def pairBytes : List (BitVec 4) → Option (List Byte)
  | [] => some []
  | [_] => none
  | a :: b :: rest => (pairBytes rest).map fun bytes => (a ++ b : BitVec 8) :: bytes

/-- The frame of twelve bytes, identifier first (44_text_forms.md R150). -/
def frameOfBytes : List Byte → Option CanFrame
  | b0 :: b1 :: b2 :: b3 :: rest => (payloadOf rest).map fun data => { id := be32 b0 b1 b2 b3, data := data }
  | _ => none

/-- The cleaned text: tokens without their marks, run together (44_text_forms.md R150). -/
def cleaned (t : Text) : Text := ((tokens t).map dropMark).flatten

/-- `PARSE_TRANSCRIPT`; none is the fault `FormatError` (44_text_forms.md R150). -/
def parseTranscriptOf (t : Text) : Option CanFrame :=
  ((cleaned t).mapM hexValue).bind fun digits => (pairBytes digits).bind frameOfBytes

end Sys2Proof.Machine
end

