-- ==== Sys2Proof/Machine/Ops.lean ====
section
/-!
DEFINITION. The shared operations over the state: giving a response, raising a fault, reading the tables, and
decoding the fields of a frame.
-/

namespace Sys2Proof.Machine

/-- The state after a response to the current request: nothing else changes (10_state.md R21, R38). -/
def State.answer (s : State) (r : Response) : State := { s with responses := s.responses ++ [r] }

/-- The operation ends with this response (00_scope.md R11, `resp.f <- v`). -/
def respond (r : Response) (s : State) : Host.Outcome State Fault Refusal := .next (s.answer r)

/-- `raise F(info)`: taking an exception. The fault is delivered in the response to the request that caused it and
nowhere else; nothing is saved, no mode changes, and there is nothing to return from: the next request is answered
as if the faulting one had never been made (60_exceptions.md R164, R167). -/
def raise (c : FaultCause) (s : State) : Host.Outcome State Fault Refusal := respond (.fault c) s

/-- The code of a fault cause (60_exceptions.md R160). -/
def causeCode : FaultCause → BitVec 2
  | .malformedPayload _ => 1
  | .illegalOp _ => 2
  | .formatError => 3

/-- `fault : u2` of a response; 0 when the operation produced its result (10_state.md R33; 60_exceptions.md R160). -/
def faultField : Response → BitVec 2
  | .fault c => causeCode c
  | .lookup _ => 0
  | .ident _ => 0
  | .idFields _ => 0
  | .payload _ => 0
  | .frame _ => 0
  | .text _ => 0
  | .rendered _ => 0
  | .canFrame _ => 0

/-- The code of a tag (10_state.md R34). -/
def tagCode : ValueTag → BitVec 3
  | .float => 0
  | .enum => 1
  | .alarms => 2
  | .int => 3
  | .unknown => 4

/-- The four sub-fields of an identifier (41_id_codec.md R102). -/
def idFieldsOf (id : Word) : IdFields where
  mxrId := idMxrId id
  moduleType := idModuleType id
  dstAddr := idDstAddr id
  srcAddr := idSrcAddr id

/-- Steps 4 and 5 of DECODE_FRAME: the tag, by the first test that holds (43_decode_frame.md R120, R125, R133). -/
def tagOf (definition : Option RegDef) (reg : RegAddr) (word : Word) : ValueTag :=
  match definition with
  | none => .unknown
  | some d =>
      if kindIsFloat d.kind then .float
      else if (optionLabel d (signed32 word)).isSome then .enum
      else if reg = alarmReg then .alarms
      else .int

/-- The six steps of DECODE_FRAME on a payload of eight bytes, the class of byte 0 given (43_decode_frame.md R120
to R130). -/
def decodedFrame (t : RegTable) (frameClass : FrameClass) (id : Word) (p : Payload) : DecodedFrame :=
  let reg := memRead16 p 2
  let word := memRead32 p 4
  let definition := regRomAt t reg
  { idFields := idFieldsOf id
    reg := reg
    rawHex := hexBytesText p.toList
    value := { tag := tagOf definition reg word, word := word }
    error := classError frameClass
    errDesc := classDescription frameClass
    retCode := memRead8 p 0
    isResponse := classIsResponse frameClass
    note := classNote frameClass
    found := definition.isSome
    definition := definition }

end Sys2Proof.Machine
end

