-- ==== Sys2Proof/Machine/Display.lean ====
section
/-!
DEFINITION. The text operations (44_text_forms.md).
-/

namespace Sys2Proof.Machine

/-- FRAME_TO_DISPLAY (44_text_forms.md R142); a payload that is not eight bytes long is refused (R143). -/
def execFrameToDisplay (id : Word) (pl : List Byte) (s : State) : Host.Outcome State Fault Refusal :=
  match payloadOf pl with
  | none => .refused (.displayOfNonFrame pl.length)
  | some p => respond (.text (displayText id p)) s

/-- HEX_BYTES (44_text_forms.md R140). -/
def execHexBytes (bytes : List Byte) (s : State) : Host.Outcome State Fault Refusal :=
  respond (.text (hexBytesText bytes)) s

/-- RENDER_VALUE (44_text_forms.md R144). -/
def execRenderValue (value : DecodedValue) (definition : Option RegDef) (s : State) :
    Host.Outcome State Fault Refusal :=
  respond (.rendered (renderValueOf s.params s.alarmRom value definition)) s

/-- ALARM_TEXT (44_text_forms.md R146). -/
def execAlarmText (word : Word) (s : State) : Host.Outcome State Fault Refusal :=
  respond (.text (alarmTextOf s.alarmRom word)) s

/-- PARSE_TRANSCRIPT (44_text_forms.md R150; 60_exceptions.md R163). -/
def execParseTranscript (text : Text) (s : State) : Host.Outcome State Fault Refusal :=
  match parseTranscriptOf text with
  | none => raise .formatError s
  | some f => respond (.canFrame f) s

end Sys2Proof.Machine
end

