-- ==== Sys2Proof/Machine/Frame.lean ====
section
/-!
DEFINITION. The frame decoder, the four frame classes of the wire form, and the reserved selectors
(43_decode_frame.md; 30_encoding.md R65 to R71).
-/

namespace Sys2Proof.Machine

/-- DECODE_FRAME (43_decode_frame.md R120): the length is checked before anything is read. -/
def execDecodeFrame (id : Word) (pl : List Byte) (s : State) : Host.Outcome State Fault Refusal :=
  match payloadOf pl with
  | none => raise (.malformedPayload pl.length) s
  | some p => respond (.frame (decodedFrame s.regRom (classOfCode (memRead8 p 0)) id p)) s

/-- A wire frame of class RESP_OK, decoded (30_encoding.md R65, R67; 43_decode_frame.md R122). -/
def execRespOk (id : Word) (reserved : Byte) (reg : RegAddr) (word : Word) (s : State) :
    Host.Outcome State Fault Refusal :=
  respond (.frame (decodedFrame s.regRom .respOk id (payloadFields rcOk reserved reg word))) s

/-- A wire frame of class RESP_DEFAULTED, decoded (30_encoding.md R65, R67; 43_decode_frame.md R122). -/
def execRespDefaulted (id : Word) (reserved : Byte) (reg : RegAddr) (word : Word) (s : State) :
    Host.Outcome State Fault Refusal :=
  respond (.frame (decodedFrame s.regRom .respDefaulted id (payloadFields rcDefaulted reserved reg word))) s

/-- A wire frame of class RESP_FAIL, decoded (30_encoding.md R65, R67; 43_decode_frame.md R122). -/
def execRespFail (id : Word) (reserved : Byte) (reg : RegAddr) (word : Word) (s : State) :
    Host.Outcome State Fault Refusal :=
  respond (.frame (decodedFrame s.regRom .respFail id (payloadFields rcFail reserved reg word))) s

/-- A wire frame of class COMMAND, decoded (30_encoding.md R65, R67; 43_decode_frame.md R122). -/
def execCommand (id : Word) (code reserved : Byte) (reg : RegAddr) (word : Word) (s : State) :
    Host.Outcome State Fault Refusal :=
  respond (.frame (decodedFrame s.regRom .command id (payloadFields code reserved reg word))) s

/-- A reserved selector: the fault `IllegalOp`, which records `op`, and no result (30_encoding.md R71;
60_exceptions.md R162). -/
def execReservedOp (x : BitVec 1) (s : State) : Host.Outcome State Fault Refusal :=
  raise (.illegalOp (0b11#2 ++ x)) s

end Sys2Proof.Machine
end

