-- ==== Sys2Proof/Machine/Ident.lean ====
section
/-!
DEFINITION. The identifier encoder and decoder (41_id_codec.md; 30_encoding.md R74).
-/

namespace Sys2Proof.Machine

/-- BUILD_ID with its source given (41_id_codec.md R100). -/
def execBuildId (dst src : Nat) (s : State) : Host.Outcome State Fault Refusal :=
  respond (.ident (buildIdWord dst src false)) s

/-- BUILD_ID with `src_default = 1`: the source is `MONITOR_ADDR`, whatever `src` holds (30_encoding.md R74). -/
def execBuildIdDefault (dst : Nat) (s : State) : Host.Outcome State Fault Refusal :=
  respond (.ident (buildIdWord dst 0 true)) s

/-- PARSE_ID (41_id_codec.md R102). -/
def execParseId (id : Word) (s : State) : Host.Outcome State Fault Refusal :=
  respond (.idFields (idFieldsOf id)) s

end Sys2Proof.Machine
end

