-- ==== Sys2Proof/Machine/Marshal.lean ====
section
/-!
DEFINITION. The payload marshaller (42_payload_build.md).
-/

namespace Sys2Proof.Machine

/-- BUILD_PAYLOAD (42_payload_build.md R110). -/
def execBuildPayload (addr : RegAddr) (value : Num) (isFloat : Bool) (s : State) :
    Host.Outcome State Fault Refusal :=
  let p0 : Payload := #v[0, 0, 0, 0, 0, 0, 0, 0]
  let p1 := memWrite16 p0 2 addr
  let p2 := memWrite32 p1 4 (wireWordOf s.params value isFloat)
  respond (.payload p2) s

end Sys2Proof.Machine
end

