-- ==== Sys2Proof/Machine/Table.lean ====
section
/-!
DEFINITION. The Register Table's own operation (40_register_table.md).
-/

namespace Sys2Proof.Machine

/-- LOOKUP (40_register_table.md R90). -/
def execLookup (addr : RegAddr) (s : State) : Host.Outcome State Fault Refusal :=
  respond (.lookup ((regRomAt s.regRom addr).map fun d =>
    { definition := d, isFloat := kindIsFloat d.kind, isWritable := kindIsWritable d.kind })) s

end Sys2Proof.Machine
end

