-- ==== Sys2Proof/Machine/Dispatch.lean ====
section
/-!
DEFINITION. The dispatch: one arm for each constructor of `Instr`.
-/

namespace Sys2Proof.Machine

/-- What each operation does. -/
def exec (i : Instr) (s : State) : Host.Outcome State Fault Refusal :=
  match i with
  | .lookup addr => Sys2Proof.Machine.execLookup addr s
  | .buildId dst src => Sys2Proof.Machine.execBuildId dst src s
  | .parseId id => Sys2Proof.Machine.execParseId id s
  | .buildPayload addr value isFloat => Sys2Proof.Machine.execBuildPayload addr value isFloat s
  | .decodeFrame id pl => Sys2Proof.Machine.execDecodeFrame id pl s
  | .frameToDisplay id pl => Sys2Proof.Machine.execFrameToDisplay id pl s
  | .reservedOp x => Sys2Proof.Machine.execReservedOp x s
  | .buildIdDefault dst => Sys2Proof.Machine.execBuildIdDefault dst s
  | .respOk id reserved reg word => Sys2Proof.Machine.execRespOk id reserved reg word s
  | .respDefaulted id reserved reg word => Sys2Proof.Machine.execRespDefaulted id reserved reg word s
  | .respFail id reserved reg word => Sys2Proof.Machine.execRespFail id reserved reg word s
  | .command id code reserved reg word => Sys2Proof.Machine.execCommand id code reserved reg word s
  | .hexBytes bytes => Sys2Proof.Machine.execHexBytes bytes s
  | .renderValue value definition => Sys2Proof.Machine.execRenderValue value definition s
  | .alarmText word => Sys2Proof.Machine.execAlarmText word s
  | .parseTranscript text => Sys2Proof.Machine.execParseTranscript text s

end Sys2Proof.Machine
end

