-- ==== Sys2Proof/Machine/Step.lean ====
section
/-!
DEFINITION. One step: the next presented input is taken and answered (10_state.md R21; 70_reset_and_hazards.md
R190; notes/assumptions/1.md).
-/

namespace Sys2Proof.Machine

/-- One step. With nothing presented the block waits and nothing changes. Else the next input is taken, decoded and
executed; an input that no port can present stops the model. -/
def step (s : State) : Host.Outcome State Fault Refusal :=
  match s.pending with
  | [] => .next s
  | p :: rest =>
      match decode s.params p with
      | .error e => .fault (.notPresentable e)
      | .ok i => exec i { s with pending := rest }

/-- The state with the input of an opcode-table word presented as the next one. A width that no row of the table
has presents nothing. -/
def State.withFetchWord (s : State) (nbits w : Nat) : State :=
  match tableInput nbits w with
  | none => s
  | some p => { s with pending := p :: s.pending }

end Sys2Proof.Machine
end

