-- ==== Sys2Proof/Safety.lean ====
section
/-!
DEFINITION. What counts as a safe run: the parameters and tables are admissible, and every response given is one the
spec allows.
-/

namespace Sys2Proof.Machine

/-- Admissible parameters: the constraints of 00_scope.md R7 on `AW` and `PL_MAX`, of 42_payload_build.md R112 item 4
on `F32_NAN`, and of 44_text_forms.md R147 on the marker. -/
def ParamsAdmissible (P : Params) : Prop :=
  8 ≤ P.aw ∧ 8 ≤ P.plMax ∧ isNanPattern P.floatNan = true ∧ P.unknownMarker ≠ []

/-- What every DecodedFrame satisfies, given the Register Table (10_state.md R31; 43_decode_frame.md R122, R123,
R125, R130, R133). -/
def FrameLegal (t : RegTable) (f : DecodedFrame) : Prop :=
  f.rawHex.length = 23 ∧
  (f.isResponse = true ↔ f.retCode = 0xF0 ∨ f.retCode = 0xF1 ∨ f.retCode = 0xF2) ∧
  (f.error = true ↔ f.retCode = 0xF2) ∧
  (f.errDesc ≠ [] ↔ f.retCode = 0xF1 ∨ f.retCode = 0xF2) ∧
  (f.error = true → f.errDesc = "F2: Failure, discard frame".toList) ∧
  f.note.toNat = (if f.retCode = 0xF1 then 1 else if f.retCode = 0xF2 then 2 else 0) ∧
  f.definition = regRomAt t f.reg ∧
  f.found = f.definition.isSome ∧
  (f.value.tag = .unknown ↔ f.definition = none) ∧
  (f.value.tag = .float ↔ ∃ d, f.definition = some d ∧ kindIsFloat d.kind = true) ∧
  (f.value.tag = .enum → ∃ d, f.definition = some d ∧ (optionLabel d (signed32 f.value.word)).isSome = true) ∧
  (f.value.tag = .alarms → f.reg = alarmReg)

/-- What every response satisfies, given the Register Table. -/
def ResponseLegal (t : RegTable) : Response → Prop
  | .lookup found => ∀ f, found = some f →
      (∃ a, regRomAt t a = some f.definition) ∧
        f.isFloat = kindIsFloat f.definition.kind ∧ f.isWritable = kindIsWritable f.definition.kind
  | .ident id => id &&& 0xFFFF0000 = 0x15810000
  | .idFields _ => True
  | .payload p => p[0] = 0 ∧ p[1] = 0
  | .frame f => FrameLegal t f
  | .text _ => True
  | .rendered _ => True
  | .canFrame _ => True
  | .fault (.malformedPayload n) => n ≠ 8
  | .fault (.illegalOp op) => op = 6 ∨ op = 7
  | .fault .formatError => True

/-- The invariant: admissible parameters and tables, and legal responses only. -/
structure State.Inv (s : State) : Prop where
  params    : ParamsAdmissible s.params
  regRom    : regRomAdmissible s.regRom = true
  alarmRom  : alarmRomAdmissible s.alarmRom = true
  responses : ∀ r ∈ s.responses, ResponseLegal s.regRom r

end Sys2Proof.Machine
end

