-- ==== Sys2Proof/Certificates/Slice0/Obligations.lean ====
section
/-!
DEFINITION. The statements for the provers. `{ s with responses := s.responses ++ [r] }` is the state `s` after one
more response `r`, everything else unchanged; a conclusion of that form is an operation's result, its completion and
its frame at once.
-/

open Sys2Proof Sys2Proof.Machine

/-! ### Reset, the invariant, the step -/

/-- The block at startup: no response, and the entries of the two tables that the spec names (10_state.md R26, R29,
R37). That nothing is pending is the model's choice (notes/assumptions/1.md), and so is it that all eight parameters
hold the defaults of 00_scope.md section 4 (DESIGN CHOICE, unsafe, notes/assumptions/13.md). -/
def Obligations.ResetHoldsTheKnownTableEntries : Prop :=
  State.reset.responses = [] ∧ State.reset.pending = [] ∧
  State.reset.params =
    { aw := 8, plMax := 15, roundTie := .awayFromZero, floatRule := .nearestEven, floatNan := 0x7FC00000,
      intRule := .towardZero, unknownMarker := "Unknown register: 0x".toList,
      unknownHex := .plain { upper := true, padded := true } } ∧
  (∃ d, regRomAt State.reset.regRom 0x0001 = some d ∧ d.address = 0x0001 ∧
    d.name = "Output Voltage".toList ∧ kindIsFloat d.kind = true ∧ d.unit = some "V".toList) ∧
  (∃ d, regRomAt State.reset.regRom 0x0100 = some d ∧ d.address = 0x0100 ∧
    kindIsFloat d.kind = false ∧ optionLabel d 5 = none) ∧
  (∃ d, regRomAt State.reset.regRom 0x0101 = some d ∧ d.address = 0x0101 ∧
    d.name = "Status".toList ∧ kindIsFloat d.kind = false ∧ optionLabel d 7 = some "Running".toList) ∧
  regRomAt State.reset.regRom 0x9999 = none ∧
  alarmRomAt State.reset.alarmRom 0 = "Input Overvoltage".toList ∧
  alarmRomAt State.reset.alarmRom 2 = "Output Overvoltage".toList

/-- The block at startup meets the invariant. -/
def Obligations.ResetMeetsTheInvariant : Prop := State.reset.Inv

/-- Every step keeps the invariant: parameters and tables stay admissible, and every response given is one the
spec allows. -/
def Obligations.StepKeepsTheInvariant : Prop :=
  ∀ s t : State, s.Inv → step s = .next t → t.Inv

/-- A step takes the next input, decodes it and runs the operation; with nothing presented it changes nothing; an
input that no port can present stops (notes/assumptions/1.md, 3.md). -/
def Obligations.StepRunsTheDecodedOperation : Prop :=
  (∀ (s : State) (p : Input) (rest : List Input) (i : Instr), s.pending = p :: rest →
    decode s.params p = .ok i → step s = exec i { s with pending := rest }) ∧
  (∀ (s : State) (p : Input) (rest : List Input) (e : IllFormed), s.pending = p :: rest →
    decode s.params p = .error e → step s = .fault (.notPresentable e)) ∧
  (∀ s : State, s.pending = [] → step s = .next s)

/-- Every operation that runs gives exactly one response and changes nothing else: parameters, both tables and the
inputs still pending are as before (10_state.md R35, R38; 20_memory.md R48). -/
def Obligations.OperationsOnlyAddOneResponse : Prop :=
  ∀ (i : Instr) (s t : State), exec i s = .next t →
    t.params = s.params ∧ t.regRom = s.regRom ∧ t.alarmRom = s.alarmRom ∧ t.pending = s.pending ∧
      ∃ r, t.responses = s.responses ++ [r]

/-- Every operation has a response, for all operands, but for FRAME_TO_DISPLAY on a payload that is no CanFrame's
(70_reset_and_hazards.md R190; 44_text_forms.md R143). -/
def Obligations.EveryOperationHasAResponse : Prop :=
  ∀ (i : Instr) (s : State), (∀ id pl, i = .frameToDisplay id pl → pl.length = 8) →
    ∃ r, exec i s = .next { s with responses := s.responses ++ [r] }

/-- What an input is answered does not depend on the responses given before or on the inputs presented after it
(10_state.md R21). -/
def Obligations.AnswerIsIndependentOfOtherRequests : Prop :=
  ∀ (s : State) (p : Input) (rest rest' : List Input) (h h' : List Response),
    (∀ r, step { s with pending := p :: rest, responses := h }
          = .next { s with pending := rest, responses := h ++ [r] } →
        step { s with pending := p :: rest', responses := h' }
          = .next { s with pending := rest', responses := h' ++ [r] }) ∧
    (∀ e, step { s with pending := p :: rest, responses := h } = .fault e →
        step { s with pending := p :: rest', responses := h' } = .fault e) ∧
    (∀ e, step { s with pending := p :: rest, responses := h } = .refused e →
        step { s with pending := p :: rest', responses := h' } = .refused e)

/-- A sequence of inputs, each of which alone is answered with its response, is answered with those responses in that
order, and the block is otherwise as before (10_state.md R21; 20_memory.md R48; 60_exceptions.md R167, R174). That
inputs stand in a queue that is answered in turn, one a step, is the model's choice (notes/assumptions/1.md,
25.md). -/
def Obligations.SequenceIsAnsweredAsIfEachWereAlone : Prop :=
  ∀ (s : State) (ps : List Input) (rs : List Response),
    List.Forall₂ (fun p r => step { s with pending := [p], responses := [] }
        = .next { s with pending := [], responses := [r] }) ps rs →
    ∀ (later : List Input) (before : List Response),
      Host.Core.run core ps.length ({ s with pending := ps ++ later, responses := before } : State)
        = (.next { s with pending := later, responses := before ++ rs } : Host.Outcome State Fault Refusal)

/-! ### Encodings -/

/-- Decoding the encoding of a well-formed operation gives the operation back, with every operand. -/
def Obligations.DecodeOfEncodeIsTheOperation : Prop :=
  ∀ (P : Params) (i : Instr), i.WellFormed P → decode P (encode i) = .ok i

/-- Words written out decode to the operations they stand for. The four frames are the spec's 96-bit wire form
(30_encoding.md R66, R67). The eight selectors rest on the model's choice: the spec packs no request, and a table word
of at most 8 bits is taken as the request with this `op` (30_encoding.md R70, R71) and every operand zero or empty
(notes/assumptions/2.md), so that 0b001 is BUILD_ID and not BUILD_ID.default (notes/assumptions/14.md). -/
def Obligations.SpecWordsDecodeToTheirOperations : Prop :=
  decodeTableWord 8 0b000 = some (.lookup 0) ∧
  decodeTableWord 8 0b001 = some (.buildId 0 0) ∧
  decodeTableWord 8 0b010 = some (.parseId 0) ∧
  decodeTableWord 8 0b011 = some (.buildPayload 0 (.fin 0) false) ∧
  decodeTableWord 8 0b100 = some (.decodeFrame 0 []) ∧
  decodeTableWord 8 0b101 = some (.frameToDisplay 0 []) ∧
  decodeTableWord 8 0b110 = some (.reservedOp 0) ∧
  decodeTableWord 8 0b111 = some (.reservedOp 1) ∧
  decodeTableWord 96 0x1581A002F0000001442F0000 = some (.respOk 0x1581A002 0 0x0001 0x442F0000) ∧
  decodeTableWord 96 0x1581A002F1AB010000000005 = some (.respDefaulted 0x1581A002 0xAB 0x0100 5) ∧
  decodeTableWord 96 0x1581A002F20099990000002A = some (.respFail 0x1581A002 0 0x9999 0x2A) ∧
  decodeTableWord 96 0x158101A000000001442F0000 = some (.command 0x158101A0 0 0 0x0001 0x442F0000)

/-- The selector names the operation and which fields are its operands (30_encoding.md R70). -/
def Obligations.SelectorNamesTheOperation : Prop :=
  ∀ (P : Params) (r : Request),
    (r.op = 0 → decode P (.request r) = .ok (.lookup r.addr)) ∧
    (r.op = 1 → r.srcDefault = false → r.dst < 2 ^ P.aw → r.src < 2 ^ P.aw →
      decode P (.request r) = .ok (.buildId r.dst r.src)) ∧
    (r.op = 1 → r.srcDefault = true → r.dst < 2 ^ P.aw →
      decode P (.request r) = .ok (.buildIdDefault r.dst)) ∧
    (r.op = 2 → decode P (.request r) = .ok (.parseId r.id)) ∧
    (r.op = 3 → decode P (.request r) = .ok (.buildPayload r.addr r.value r.isFloat)) ∧
    (r.op = 4 → r.pl.length ≤ P.plMax → decode P (.request r) = .ok (.decodeFrame r.id r.pl)) ∧
    (r.op = 5 → r.pl.length ≤ P.plMax → decode P (.request r) = .ok (.frameToDisplay r.id r.pl))

/-- Two requests that agree on the selector and on the fields their operation reads are the same operation
(10_state.md R32). -/
def Obligations.RequestReadsOnlyTheNamedFields : Prop :=
  ∀ (P : Params) (r r' : Request), r.op = r'.op →
    (r.op = 0 → r.addr = r'.addr) →
    (r.op = 1 → r.dst = r'.dst ∧ r.srcDefault = r'.srcDefault ∧ (r.srcDefault = false → r.src = r'.src)) →
    (r.op = 2 → r.id = r'.id) →
    (r.op = 3 → r.addr = r'.addr ∧ r.value = r'.value ∧ r.isFloat = r'.isFloat) →
    (r.op = 4 ∨ r.op = 5 → r.id = r'.id ∧ r.pl = r'.pl) →
    decode P (.request r) = decode P (.request r')

/-- A wire frame is the operation of its class, chosen by byte 0 alone, with the other fields of the 96-bit form
(30_encoding.md R66, R67). -/
def Obligations.WireFrameIsClassedByByteZero : Prop :=
  ∀ (P : Params) (f : BitVec 96), decode P (.wire f) = .ok (
    if f.toNat / 2 ^ 56 % 256 = 0xF0 then
      .respOk (f.extractLsb' 64 32) (f.extractLsb' 48 8) (f.extractLsb' 32 16) (f.extractLsb' 0 32)
    else if f.toNat / 2 ^ 56 % 256 = 0xF1 then
      .respDefaulted (f.extractLsb' 64 32) (f.extractLsb' 48 8) (f.extractLsb' 32 16) (f.extractLsb' 0 32)
    else if f.toNat / 2 ^ 56 % 256 = 0xF2 then
      .respFail (f.extractLsb' 64 32) (f.extractLsb' 48 8) (f.extractLsb' 32 16) (f.extractLsb' 0 32)
    else
      .command (f.extractLsb' 64 32) (f.extractLsb' 56 8) (f.extractLsb' 48 8) (f.extractLsb' 32 16)
        (f.extractLsb' 0 32))

/-- No bit of a wire frame is lost: encoding what it decodes to gives the frame back (30_encoding.md R66). -/
def Obligations.EncodeOfDecodedWireFrameIsTheFrame : Prop :=
  ∀ (P : Params) (f : BitVec 96), ∃ i, decode P (.wire f) = .ok i ∧ encode i = .wire f

/-- A wire frame is answered as the DECODE_FRAME request with its identifier and its eight bytes
(30_encoding.md R66; 20_memory.md R41). -/
def Obligations.WireFrameIsAnsweredAsDecodeFrame : Prop :=
  ∀ (s : State) (f : BitVec 96) (rest : List Input), 8 ≤ s.params.plMax →
    step { s with pending := .wire f :: rest } =
      step { s with pending := .request { Request.zeros 4 with
        id := f.extractLsb' 64 32
        pl := [f.extractLsb' 56 8, f.extractLsb' 48 8, f.extractLsb' 40 8, f.extractLsb' 32 8,
          f.extractLsb' 24 8, f.extractLsb' 16 8, f.extractLsb' 8 8, f.extractLsb' 0 8] } :: rest }

/-! ### Faults -/

/-- A reserved selector is answered with `IllegalOp`, which records `op`, whatever the operand fields hold
(30_encoding.md R71; 60_exceptions.md R162, R166). -/
def Obligations.ReservedSelectorIsAnsweredWithIllegalOp : Prop :=
  (∀ (s : State) (r : Request) (rest : List Input), s.pending = .request r :: rest → r.op = 6 ∨ r.op = 7 →
    step s = .next { s with pending := rest, responses := s.responses ++ [.fault (.illegalOp r.op)] }) ∧
  (∀ (s : State) (x : BitVec 1), exec (.reservedOp x) s =
    .next { s with responses := s.responses ++ [.fault (.illegalOp (if x = 0 then 6 else 7))] }) ∧
  (∀ op, faultField (.fault (.illegalOp op)) = 2)

/-- DECODE_FRAME on any length but 8 is answered with `MalformedPayload`, which records the length, and with nothing
else (60_exceptions.md R161). That its code is 1 is the table of R160, the spec's own choice D7
(notes/assumptions/24.md). -/
def Obligations.WrongLengthIsAnsweredWithMalformedPayload : Prop :=
  ∀ (s : State) (id : Word) (pl : List Byte), pl.length ≠ 8 →
    exec (.decodeFrame id pl) s =
      .next { s with responses := s.responses ++ [.fault (.malformedPayload pl.length)] } ∧
    faultField (.fault (.malformedPayload pl.length)) = 1

/-- FRAME_TO_DISPLAY on any length but 8 is refused (44_text_forms.md R143). -/
def Obligations.DisplayOfNonFrameIsRefused : Prop :=
  ∀ (s : State) (id : Word) (pl : List Byte), pl.length ≠ 8 →
    exec (.frameToDisplay id pl) s = .refused (.displayOfNonFrame pl.length)

/-! ### LOOKUP -/

/-- LOOKUP answers the definition at exactly the address, with its two predicates, or not found
(40_register_table.md R90; 10_state.md R25). The first clause takes a table in its one form, the third one whose
definitions carry their own keys (10_state.md R26 constraint 1). That the key is a 16-bit address is the spec's own
inference; the one form of a table and the lookup by key alone are the model's (notes/assumptions/21.md, 22.md). -/
def Obligations.LookupAnswersTheEntryAtTheAddress : Prop :=
  (∀ (s : State) (a : RegAddr) (d : RegDef), tableCanonical s.regRom = true → (a, d) ∈ s.regRom →
    exec (.lookup a) s = .next { s with responses := s.responses ++ [.lookup (some
      { definition := d
        isFloat := decide (d.kind = .roFloat ∨ d.kind = .woFloat)
        isWritable := decide (d.kind = .woFloat ∨ d.kind = .woInt) })] }) ∧
  (∀ (s : State) (a : RegAddr), (∀ x ∈ s.regRom, x.1 ≠ a) →
    exec (.lookup a) s = .next { s with responses := s.responses ++ [.lookup none] }) ∧
  (∀ (s : State) (a : RegAddr), keysAgree s.regRom = true → ∃ found,
    exec (.lookup a) s = .next { s with responses := s.responses ++ [.lookup found] } ∧
      ∀ f, found = some f → f.definition.address = a)

/-! ### BUILD_ID and PARSE_ID -/

/-- BUILD_ID packs the two constants and the low eight bits of the two addresses; with the source left out the
source is 0xA0 (41_id_codec.md R100; 30_encoding.md R74). -/
def Obligations.BuildIdPacksTheFourFields : Prop :=
  (∀ (s : State) (dst src : Nat), exec (.buildId dst src) s = .next { s with
    responses := s.responses ++ [.ident (BitVec.ofNat 32 (0x15810000 + 256 * (dst % 256) + src % 256))] }) ∧
  (∀ (s : State) (dst : Nat), exec (.buildIdDefault dst) s = .next { s with
    responses := s.responses ++ [.ident (BitVec.ofNat 32 (0x15810000 + 256 * (dst % 256) + 0xA0))] })

/-- A BUILD_ID request with `src_default = 1` is answered as with source 0xA0, whatever `src` holds
(30_encoding.md R74). -/
def Obligations.DefaultSourceIsTheMonitorAddress : Prop :=
  ∀ (s : State) (r : Request) (rest : List Input), s.pending = .request r :: rest →
    r.op = 1 → r.srcDefault = true → r.dst < 2 ^ s.params.aw → 8 ≤ s.params.aw →
    ∃ id, step s = .next { s with pending := rest, responses := s.responses ++ [.ident id] } ∧
      step { s with pending := .request { r with srcDefault := false, src := 0xA0 } :: rest } =
        .next { s with pending := rest, responses := s.responses ++ [.ident id] }

/-- Every identifier built is well formed, and two are equal exactly when the address pairs agree in their low eight
bits (41_id_codec.md R101; 30_encoding.md R68). -/
def Obligations.BuiltIdentifiersAreWellFormedAndDistinct : Prop :=
  ∀ (s : State) (dst src dst' src' : Nat), ∃ id id' : Word,
    exec (.buildId dst src) s = .next { s with responses := s.responses ++ [.ident id] } ∧
    exec (.buildId dst' src') s = .next { s with responses := s.responses ++ [.ident id'] } ∧
    id &&& 0xFFFF0000 = 0x15810000 ∧
    (id = id' ↔ dst % 256 = dst' % 256 ∧ src % 256 = src' % 256) ∧
    ∃ idDefault : Word,
      exec (.buildIdDefault dst) s = .next { s with responses := s.responses ++ [.ident idDefault] } ∧
      idDefault &&& 0xFFFF0000 = 0x15810000

/-- PARSE_ID answers the four fields (41_id_codec.md R102). -/
def Obligations.ParseIdExtractsTheFourFields : Prop :=
  ∀ (s : State) (id : Word), exec (.parseId id) s = .next { s with responses := s.responses ++ [.idFields
    { mxrId := BitVec.ofNat 5 (id.toNat / 2 ^ 24)
      moduleType := BitVec.ofNat 8 (id.toNat / 2 ^ 16)
      dstAddr := BitVec.ofNat 8 (id.toNat / 2 ^ 8)
      srcAddr := BitVec.ofNat 8 id.toNat }] }

/-- PARSE_ID answers two identifiers alike exactly when they agree in bits 28:0 (41_id_codec.md R103). -/
def Obligations.ParseIdDropsTheUnusedBits : Prop :=
  ∀ (s : State) (id id' : Word),
    exec (.parseId id) s = exec (.parseId id') s ↔ id.toNat % 2 ^ 29 = id'.toNat % 2 ^ 29

/-- Parsing a built identifier gives the constants and the masked addresses back (41_id_codec.md R104). -/
def Obligations.ParseOfBuildGivesTheAddresses : Prop :=
  (∀ (s : State) (dst src : Nat), ∃ id,
    exec (.buildId dst src) s = .next { s with responses := s.responses ++ [.ident id] } ∧
    exec (.parseId id) s = .next { s with responses := s.responses ++ [.idFields
      { mxrId := 0x15, moduleType := 0x81, dstAddr := BitVec.ofNat 8 dst, srcAddr := BitVec.ofNat 8 src }] }) ∧
  (∀ (s : State) (dst : Nat), ∃ id,
    exec (.buildIdDefault dst) s = .next { s with responses := s.responses ++ [.ident id] } ∧
    exec (.parseId id) s = .next { s with responses := s.responses ++ [.idFields
      { mxrId := 0x15, moduleType := 0x81, dstAddr := BitVec.ofNat 8 dst, srcAddr := 0xA0 }] })

/-- Rebuilding from parsed fields writes the two constants and zeros over bits 31:16, and gives the identifier back
exactly when those bits held them (41_id_codec.md R105). -/
def Obligations.BuildOfParseRewritesTheConstants : Prop :=
  ∀ (s : State) (id : Word), ∃ (f : IdFields) (id' : Word),
    exec (.parseId id) s = .next { s with responses := s.responses ++ [.idFields f] } ∧
    exec (.buildId f.dstAddr.toNat f.srcAddr.toNat) s =
      .next { s with responses := s.responses ++ [.ident id'] } ∧
    id' = 0x15810000 ||| (id &&& 0xFFFF) ∧
    (id' = id ↔ id &&& 0xFFFF0000 = 0x15810000)

/-! ### BUILD_PAYLOAD -/

/-- BUILD_PAYLOAD lays out two zero bytes, the address and the wire word, big-endian (42_payload_build.md R110,
R111; 30_encoding.md R64). -/
def Obligations.BuildPayloadLaysOutBigEndian : Prop :=
  ∀ (s : State) (a : RegAddr) (v : Sys2Proof.Num) (isFloat : Bool), ∃ w : Word,
    w = (if isFloat = true then f32Of s.params v else i32Of s.params v) ∧
    exec (.buildPayload a v isFloat) s = .next { s with responses := s.responses ++ [.payload
      #v[0, 0, BitVec.ofNat 8 (a.toNat / 2 ^ 8), BitVec.ofNat 8 a.toNat,
        BitVec.ofNat 8 (w.toNat / 2 ^ 24), BitVec.ofNat 8 (w.toNat / 2 ^ 16),
        BitVec.ofNat 8 (w.toNat / 2 ^ 8), BitVec.ofNat 8 w.toNat]] }

/-- BUILD_PAYLOAD does not consult the tables: whatever they hold, the same payload is answered, and it carries the
address given (20_memory.md R53). -/
def Obligations.BuildPayloadIgnoresTheTables : Prop :=
  ∀ (s : State) (a : RegAddr) (v : Sys2Proof.Num) (isFloat : Bool), ∃ p : Payload,
    be16 p[2] p[3] = a ∧
    ∀ (t : RegTable) (u : AlarmTable), exec (.buildPayload a v isFloat) { s with regRom := t, alarmRom := u } =
      .next { s with regRom := t, alarmRom := u, responses := s.responses ++ [.payload p] }

/-- The value of a binary32 pattern (00_scope.md R12). -/
def Obligations.BinaryPatternHasItsValue : Prop :=
  ∀ (w : Word) (sign e f : Nat), sign = w.toNat / 2 ^ 31 → e = w.toNat / 2 ^ 23 % 256 → f = w.toNat % 2 ^ 23 →
    (e = 255 → f ≠ 0 → f32 w = .nan) ∧
    (e = 255 → f = 0 → f32 w = if sign = 0 then .posInf else .negInf) ∧
    (e = 0 → f = 0 → f32 w = if sign = 0 then .fin 0 else .negZero) ∧
    (e = 0 → f ≠ 0 → f32 w = .fin ((-1) ^ sign * f * 2 ^ (-149 : Int))) ∧
    (0 < e → e < 255 → f32 w = .fin ((-1) ^ sign * (1 + f / 2 ^ 23) * 2 ^ ((e : Int) - 127)))

/-- A value that binary32 holds exactly is built as its own pattern, the two infinities and minus zero included
(42_payload_build.md R112 items 1 and 2). It holds of every choice for the other values. -/
def Obligations.ExactFloatIsBuiltAsItsPattern : Prop :=
  ∀ (s : State) (a : RegAddr) (w : Word), f32 w ≠ .nan →
    exec (.buildPayload a (f32 w) true) s = .next { s with responses := s.responses ++ [.payload
      #v[0, 0, a.extractLsb' 8 8, a.extractLsb' 0 8,
        w.extractLsb' 24 8, w.extractLsb' 16 8, w.extractLsb' 8 8, w.extractLsb' 0 8]] }

/-- A rational is built as one of its two binary32 neighbours under either rule: no binary32 value lies strictly
between them, and an infinity stands only beyond every finite value (42_payload_build.md R112 item 3). The choice left
free is notes/assumptions/8.md; that the infinity is a neighbour of what lies beyond the finite values is the model's
inference (DEDUCED, notes/assumptions/27.md). -/
def Obligations.FloatIsBuiltAsANeighbour : Prop :=
  ∀ (P : Params) (q : Rat),
    f32 (f32Of P (.fin q)) ≠ .nan ∧
    (∀ y : Rat, (f32 (f32Of P (.fin q)) = .fin y ∨ (f32 (f32Of P (.fin q)) = .negZero ∧ y = 0)) →
      ∀ (v : Word) (x : Rat), f32 v = .fin x → ¬ (min q y < x ∧ x < max q y)) ∧
    (f32 (f32Of P (.fin q)) = .posInf → ∀ (v : Word) (x : Rat), f32 v = .fin x → x < q) ∧
    (f32 (f32Of P (.fin q)) = .negInf → ∀ (v : Word) (x : Rat), f32 v = .fin x → q < x)

/-- NaN is built as the pattern `F32_NAN`, and that is a NaN pattern in every state that meets the invariant
(42_payload_build.md R112 item 4). -/
def Obligations.NanIsBuiltAsANanPattern : Prop :=
  ∀ (s : State) (a : RegAddr), s.Inv → ∃ p : Payload,
    exec (.buildPayload a .nan true) s = .next { s with responses := s.responses ++ [.payload p] } ∧
    memRead32 p 4 = s.params.floatNan ∧ f32 (memRead32 p 4) = .nan

/-- The integer word: an integer in range is its two's complement and one out of range is `I32_OUT_OF_RANGE` of the
value, under either rule for non-integers; under the default rule a rational is first truncated toward zero and then
treated so (42_payload_build.md R113). -/
def Obligations.IntegerIsBuiltInTwosComplement : Prop :=
  (∀ (P : Params) (i : Int), i32Of P (.fin (i : Rat)) =
      if -2 ^ 31 ≤ i ∧ i ≤ 2 ^ 31 - 1 then BitVec.ofInt 32 i else Config.i32OutOfRange (.fin (i : Rat))) ∧
  (∀ (P : Params) (q : Rat) (i : Int), P.intRule = .towardZero → i = (if 0 ≤ q then ⌊q⌋ else ⌈q⌉) →
    i32Of P (.fin q) =
      if -2 ^ 31 ≤ i ∧ i ≤ 2 ^ 31 - 1 then BitVec.ofInt 32 i else Config.i32OutOfRange (.fin q)) ∧
  (∀ P : Params, i32Of P .negZero = 0 ∧ i32Of P .posInf = Config.i32OutOfRange .posInf ∧
    i32Of P .negInf = Config.i32OutOfRange .negInf ∧ i32Of P .nan = Config.i32OutOfRange .nan)

/-- What every built payload decodes to (42_payload_build.md R115). -/
def Obligations.BuiltPayloadDecodesAsACommand : Prop :=
  ∀ (s : State) (id : Word) (a : RegAddr) (v : Sys2Proof.Num) (isFloat : Bool), ∃ (p : Payload) (f : DecodedFrame),
    exec (.buildPayload a v isFloat) s = .next { s with responses := s.responses ++ [.payload p] } ∧
    p[0] = 0 ∧ p[1] = 0 ∧ memRead16 p 2 = a ∧ memRead32 p 4 = wireWordOf s.params v isFloat ∧
    exec (.decodeFrame id p.toList) s = .next { s with responses := s.responses ++ [.frame f] } ∧
    f.reg = a ∧ f.retCode = 0 ∧ f.isResponse = false ∧ f.error = false ∧ f.errDesc = [] ∧
    f.value.word = wireWordOf s.params v isFloat

/-! ### DECODE_FRAME and the frame classes -/

/-- DECODE_FRAME on eight bytes reads the fields big-endian and answers the identifier fields of PARSE_ID, the
register and its definition, the word, and the bytes as text (43_decode_frame.md R120, R121, R123, R130). That
`ret_code`, `found` and the definition are fields of the answer is the spec's own choice D9
(notes/assumptions/24.md). -/
def Obligations.DecodeFrameReadsTheFields : Prop :=
  ∀ (s : State) (id : Word) (b0 b1 b2 b3 b4 b5 b6 b7 : Byte), ∃ f : DecodedFrame,
    exec (.decodeFrame id [b0, b1, b2, b3, b4, b5, b6, b7]) s =
      .next { s with responses := s.responses ++ [.frame f] } ∧
    exec (.parseId id) s = .next { s with responses := s.responses ++ [.idFields f.idFields] } ∧
    f.retCode = b0 ∧
    f.reg.toNat = 2 ^ 8 * b2.toNat + b3.toNat ∧
    f.value.word.toNat = 2 ^ 24 * b4.toNat + 2 ^ 16 * b5.toNat + 2 ^ 8 * b6.toNat + b7.toNat ∧
    f.definition = regRomAt s.regRom f.reg ∧ f.found = f.definition.isSome ∧
    exec (.hexBytes [b0, b1, b2, b3, b4, b5, b6, b7]) s =
      .next { s with responses := s.responses ++ [.text f.rawHex] } ∧
    f.rawHex.length = 23

/-- Byte 0 alone decides `is_response`, `error`, `note` and `err_desc`, and no code is a fault
(30_encoding.md R65; 43_decode_frame.md R122; 60_exceptions.md R165). -/
def Obligations.ReturnCodeDecidesTheAnnotation : Prop :=
  ∀ (s : State) (id : Word) (p : Payload), ∃ f : DecodedFrame,
    exec (.decodeFrame id p.toList) s = .next { s with responses := s.responses ++ [.frame f] } ∧
    faultField (.frame f) = 0 ∧
    (f.isResponse, f.error, f.note, f.errDesc) =
      (if p[0] = 0xF0 then (true, false, 0, [])
       else if p[0] = 0xF1 then (true, false, 1, "F1: Forced to default value".toList)
       else if p[0] = 0xF2 then (true, true, 2, "F2: Failure, discard frame".toList)
       else (false, false, 0, []))

/-- The value's tag: unknown, then float, then label, then alarm register, then plain integer, a later test reached
only when every earlier one failed (43_decode_frame.md R133, R124 to R129). -/
def Obligations.TagFollowsThePriorityChain : Prop :=
  ∀ (s : State) (id : Word) (p : Payload), ∃ f : DecodedFrame,
    exec (.decodeFrame id p.toList) s = .next { s with responses := s.responses ++ [.frame f] } ∧
    f.reg = be16 p[2] p[3] ∧ f.value.word = be32 p[4] p[5] p[6] p[7] ∧
    (regRomAt s.regRom f.reg = none → f.value.tag = .unknown) ∧
    (∀ d, regRomAt s.regRom f.reg = some d →
      (d.kind = .roFloat ∨ d.kind = .woFloat → f.value.tag = .float) ∧
      (d.kind = .roInt ∨ d.kind = .woInt →
        (∀ l, optionLabel d f.value.word.toInt = some l → f.value.tag = .enum) ∧
        (optionLabel d f.value.word.toInt = none → f.reg = 0x0100 → f.value.tag = .alarms) ∧
        (optionLabel d f.value.word.toInt = none → f.reg ≠ 0x0100 → f.value.tag = .int)))

/-- Which field of a DecodedFrame depends on which operand (43_decode_frame.md R132). -/
def Obligations.FrameFieldsDependOnTheirOperandsOnly : Prop :=
  ∀ (s s' : State) (id id' : Word) (p p' : Payload), ∃ f f' : DecodedFrame,
    exec (.decodeFrame id p.toList) s = .next { s with responses := s.responses ++ [.frame f] } ∧
    exec (.decodeFrame id' p'.toList) s' = .next { s' with responses := s'.responses ++ [.frame f'] } ∧
    (id = id' → f.idFields = f'.idFields) ∧
    (p[0] = p'[0] → f.retCode = f'.retCode ∧ f.isResponse = f'.isResponse ∧ f.error = f'.error ∧
      f.note = f'.note ∧ f.errDesc = f'.errDesc) ∧
    (p[2] = p'[2] → p[3] = p'[3] → f.reg = f'.reg ∧
      (s.regRom = s'.regRom → f.found = f'.found ∧ f.definition = f'.definition)) ∧
    (p[4] = p'[4] → p[5] = p'[5] → p[6] = p'[6] → p[7] = p'[7] → f.value.word = f'.value.word) ∧
    (p[2] = p'[2] → p[3] = p'[3] → s.regRom = s'.regRom →
      (p[4] = p'[4] ∧ p[5] = p'[5] ∧ p[6] = p'[6] ∧ p[7] = p'[7]) ∨
        (∀ d, f.definition = some d → d.kind = .roFloat ∨ d.kind = .woFloat) →
      f.value.tag = f'.value.tag) ∧
    (f.rawHex = f'.rawHex ↔ p = p')

/-- A wire frame of each class is answered with the annotation of its class and its fields as given
(30_encoding.md R65, R67; 43_decode_frame.md R122). The class COMMAND has every code but the other three. That a wire
frame is an input of its own, answered as DECODE_FRAME is, is the model's choice (DESIGN CHOICE,
notes/assumptions/2.md), and `ret_code` is a field of the answer by the spec's own choice D9
(notes/assumptions/24.md). -/
def Obligations.FrameClassesAnswerTheirAnnotation : Prop :=
  ∀ (s : State) (id : Word) (reserved : Byte) (reg : RegAddr) (word : Word),
    (∃ f, exec (.respOk id reserved reg word) s = .next { s with responses := s.responses ++ [.frame f] } ∧
      f.retCode = 0xF0 ∧ f.isResponse = true ∧ f.error = false ∧ f.note = 0 ∧ f.errDesc = [] ∧
      f.reg = reg ∧ f.value.word = word) ∧
    (∃ f, exec (.respDefaulted id reserved reg word) s = .next { s with responses := s.responses ++ [.frame f] } ∧
      f.retCode = 0xF1 ∧ f.isResponse = true ∧ f.error = false ∧ f.note = 1 ∧
      f.errDesc = "F1: Forced to default value".toList ∧ f.reg = reg ∧ f.value.word = word) ∧
    (∃ f, exec (.respFail id reserved reg word) s = .next { s with responses := s.responses ++ [.frame f] } ∧
      f.retCode = 0xF2 ∧ f.isResponse = true ∧ f.error = true ∧ f.note = 2 ∧
      f.errDesc = "F2: Failure, discard frame".toList ∧ f.reg = reg ∧ f.value.word = word) ∧
    (∀ code, code ≠ 0xF0 → code ≠ 0xF1 → code ≠ 0xF2 → ∃ f, exec (.command id code reserved reg word) s =
        .next { s with responses := s.responses ++ [.frame f] } ∧
      f.retCode = code ∧ f.isResponse = false ∧ f.error = false ∧ f.note = 0 ∧ f.errDesc = [] ∧
      f.reg = reg ∧ f.value.word = word)

/-! ### Text -/

/-- HEX_BYTES gives two upper-case digits a byte, one space between bytes (44_text_forms.md R140). -/
def Obligations.HexBytesGivesTwoDigitsAByte : Prop :=
  ∀ (s : State) (bytes : List Byte), ∃ t : Text,
    exec (.hexBytes bytes) s = .next { s with responses := s.responses ++ [.text t] } ∧
    t = List.intercalate [' '] (bytes.map fun b =>
      ["0123456789ABCDEF".toList.getD (b.toNat / 16) '?', "0123456789ABCDEF".toList.getD (b.toNat % 16) '?']) ∧
    t.length = 3 * bytes.length - 1

/-- FRAME_TO_DISPLAY gives 45 characters, all 32 bits of the container and all eight bytes among them, so that two
frames have the same text only if they are the same (44_text_forms.md R142; 30_encoding.md R62). -/
def Obligations.DisplayTextShowsTheWholeFrame : Prop :=
  ∀ (s : State) (id : Word) (p : Payload), ∃ t h : Text,
    exec (.frameToDisplay id p.toList) s = .next { s with responses := s.responses ++ [.text t] } ∧
    t = "ID: 0x".toList ++ ((List.range 8).map fun k =>
        "0123456789ABCDEF".toList.getD (id.toNat / 16 ^ (7 - k) % 16) '?') ++ "  DATA: ".toList ++ h ∧
    exec (.hexBytes p.toList) s = .next { s with responses := s.responses ++ [.text h] } ∧
    t.length = 45 ∧
    ∀ (id' : Word) (p' : Payload), exec (.frameToDisplay id' p'.toList) s =
      .next { s with responses := s.responses ++ [.text t] } → id' = id ∧ p' = p

/-- ALARM_TEXT gives "No Alarms" for zero, else the labels of exactly the set bits, ascending, joined with ", "
(44_text_forms.md R146). That a reserved position gives its label like any other is the spec's own choice D12
(notes/assumptions/23.md). -/
def Obligations.AlarmTextListsTheSetBits : Prop :=
  ∀ (s : State) (word : Word), ∃ positions : List (Fin 32),
    positions.Pairwise (· < ·) ∧ (∀ i : Fin 32, i ∈ positions ↔ word.toNat.testBit i = true) ∧
    exec (.alarmText word) s = .next { s with responses := s.responses ++ [.text
      (if word = 0 then "No Alarms".toList
       else List.intercalate ", ".toList (positions.map fun i => s.alarmRom[i]))] }

/-- RENDER_VALUE by tag (44_text_forms.md R144). Where the definition given has no label for the tag VAL_ENUM the
label is a free value (notes/assumptions/11.md). -/
def Obligations.RenderValueFollowsTheTag : Prop :=
  ∀ (s : State) (w : Word) (d : Option RegDef),
    exec (.renderValue ⟨.float, w⟩ d) s =
      .next { s with responses := s.responses ++ [.rendered (.rounded (round2 s.params w))] } ∧
    (∃ label, exec (.renderValue ⟨.enum, w⟩ d) s = .next { s with responses := s.responses ++ [.rendered (.text
        ((toString w.toInt).toList ++ " (".toList ++ label ++ ")".toList))] } ∧
      ∀ d' l, d = some d' → optionLabel d' w.toInt = some l → label = l) ∧
    (∃ t, exec (.alarmText w) s = .next { s with responses := s.responses ++ [.text t] } ∧
      exec (.renderValue ⟨.alarms, w⟩ d) s =
        .next { s with responses := s.responses ++ [.rendered (.text t)] }) ∧
    exec (.renderValue ⟨.int, w⟩ d) s =
      .next { s with responses := s.responses ++ [.rendered (.int w.toInt)] } ∧
    exec (.renderValue ⟨.unknown, w⟩ d) s =
      .next { s with responses := s.responses ++ [.rendered (.text (unknownText s.params w))] }

/-- UNKNOWN_TEXT is its marker and a hexadecimal rendering of the word, whatever the rendering, so that two words have
the same text only if they are the same; under the default it ends with eight upper-case digits (44_text_forms.md R147;
the default is the spec's own choice, D15). What counts as a rendering is notes/assumptions/20.md. -/
def Obligations.UnknownTextShowsTheWord : Prop :=
  ∀ (P : Params) (w w' : Word),
    (∃ rendering : Text, unknownText P w = P.unknownMarker ++ rendering ∧ rendersHex rendering w = true) ∧
    (unknownText P w = unknownText P w' → w = w') ∧
    unknownText defaultParams w = "Unknown register: 0x".toList ++ ((List.range 8).map fun k =>
      "0123456789ABCDEF".toList.getD (w.toNat / 16 ^ (7 - k) % 16) '?')

/-- A float is rounded to a nearest hundredth, whatever the rule for ties; minus zero gives 0, infinities and NaN
pass (43_decode_frame.md R127 items 1, 3 and 4). -/
def Obligations.FloatIsRoundedToANearestHundredth : Prop :=
  ∀ (s : State) (w : Word) (d : Option RegDef), ∃ r : Rounded,
    exec (.renderValue ⟨.float, w⟩ d) s = .next { s with responses := s.responses ++ [.rendered (.rounded r)] } ∧
    (∀ x : Rat, f32 w = .fin x → ∃ n : Int, r = .hundredths n ∧ |(n : Rat) - 100 * x| ≤ 1 / 2) ∧
    (f32 w = .negZero → r = .hundredths 0) ∧ (f32 w = .posInf → r = .posInf) ∧
    (f32 w = .negInf → r = .negInf) ∧ (f32 w = .nan → r = .nan)

/-- Under the default rule a tie goes away from zero (43_decode_frame.md R127 item 2; the spec's own choice, D13). -/
def Obligations.DefaultTieGoesAwayFromZero : Prop :=
  ∀ (P : Params) (w : Word) (x : Rat) (m : Nat), P.roundTie = .awayFromZero → f32 w = .fin x →
    (100 * x = (m : Rat) + 1 / 2 → round2 P w = .hundredths (m + 1)) ∧
    (100 * x = -((m : Rat) + 1 / 2) → round2 P w = .hundredths (-(m + 1)))

/-- PARSE_TRANSCRIPT of the transcript of a frame is the frame, in the two spellings of 44_text_forms.md R152. -/
def Obligations.TranscriptOfAFrameParsesToIt : Prop :=
  ∀ (s : State) (f : CanFrame),
    exec (.parseTranscript (hex8 f.id ++ " ".toList ++ (f.data.toList.map hex2).flatten)) s =
      .next { s with responses := s.responses ++ [.canFrame f] } ∧
    exec (.parseTranscript ("0x".toList ++ hex8 f.id ++ " ".toList ++ hexBytesText f.data.toList)) s =
      .next { s with responses := s.responses ++ [.canFrame f] }

/-- PARSE_TRANSCRIPT answers a frame or `FormatError`, whose code is 3; a text of digits and whitespace is a
transcript exactly when it has 24 digits, and then of the frame with those digits, in either case and wherever the
whitespace stands; a text with an "x" or "X" that is not the second character of a token beginning with "0", or with
any other character, is none (44_text_forms.md R150; 60_exceptions.md R163). The cleanup is the spec's own choice D19
(notes/assumptions/18.md), the code 3 its choice D7 (60_exceptions.md R160; notes/assumptions/24.md). -/
def Obligations.TranscriptHasTwentyFourDigits : Prop :=
  ∀ (s : State) (t : Text),
    ((∃ f, exec (.parseTranscript t) s = .next { s with responses := s.responses ++ [.canFrame f] }) ∨
      exec (.parseTranscript t) s = .next { s with responses := s.responses ++ [.fault .formatError] }) ∧
    ((∀ c ∈ t, isBlank c = true ∨ (hexValue c).isSome = true) →
      ((∃ f, exec (.parseTranscript t) s = .next { s with responses := s.responses ++ [.canFrame f] }) ↔
        (t.filter fun c => (hexValue c).isSome).length = 24) ∧
      ∀ f : CanFrame, exec (.parseTranscript t) s = .next { s with responses := s.responses ++ [.canFrame f] } ↔
        (t.filter fun c => (hexValue c).isSome).map Char.toUpper =
          ((List.range 8).map fun k => "0123456789ABCDEF".toList.getD (f.id.toNat / 16 ^ (7 - k) % 16) '?') ++
          (f.data.toList.map fun b => ["0123456789ABCDEF".toList.getD (b.toNat / 16) '?',
            "0123456789ABCDEF".toList.getD (b.toNat % 16) '?']).flatten) ∧
    (∀ (u v : Text) (c : Char), t = u ++ c :: v → c = 'x' ∨ c = 'X' →
      (∀ a, u = a ++ ['0'] → ∃ b, a.getLast? = some b ∧ isBlank b = false) →
      exec (.parseTranscript t) s = .next { s with responses := s.responses ++ [.fault .formatError] }) ∧
    (∀ c ∈ t, isBlank c = false → (hexValue c).isSome = false → c ≠ 'x' → c ≠ 'X' →
      exec (.parseTranscript t) s = .next { s with responses := s.responses ++ [.fault .formatError] }) ∧
    faultField (.fault .formatError) = 3

/-! ### The default float conversion -/

/-- Under the default rule a rational is built as a nearest binary32 value, a tie as the one whose significand is even,
an infinity from half a step above the largest finite value on, and the sign is that of the rational
(42_payload_build.md R112 item 3). The rule is the spec's default from general knowledge (K2; notes/assumptions/8.md,
16.md); where the infinity begins and that a result zero keeps the sign are the model's inference (DEDUCED,
notes/assumptions/27.md). -/
def Obligations.DefaultFloatIsTheNearestEven : Prop :=
  ∀ (P : Params) (q : Rat), P.floatRule = .nearestEven →
    (∀ y : Rat, (f32 (f32Of P (.fin q)) = .fin y ∨ (f32 (f32Of P (.fin q)) = .negZero ∧ y = 0)) →
      ∀ (v : Word) (x : Rat), f32 v = .fin x →
        |q - y| ≤ |q - x| ∧ (|q - y| = |q - x| → x ≠ y → (f32Of P (.fin q)).toNat % 2 = 0)) ∧
    (f32 (f32Of P (.fin q)) = .posInf ↔ 2 ^ 128 - 2 ^ 103 ≤ q) ∧
    (f32 (f32Of P (.fin q)) = .negInf ↔ q ≤ -(2 ^ 128 - 2 ^ 103)) ∧
    (f32Of P (.fin q)).toNat / 2 ^ 31 = if q < 0 then 1 else 0

/-! ### The tokens of a transcript -/

/-- A transcript is read token by token: for tokens of digits in either case, each after whitespace (the first perhaps
after none) and each perhaps marked with one "0x" or "0X", PARSE_TRANSCRIPT answers the frame whose 24 digits the
tokens without their marks make up, and `FormatError` where there are not 24 (44_text_forms.md R150, R151). Which
characters are digits and whitespace is written out here; the cleanup is the spec's own choice D19, the whitespace
its K6 (notes/assumptions/18.md). -/
def Obligations.TranscriptIsReadTokenByToken : Prop :=
  ∀ (s : State) (pieces : List (Text × Text × Text)) (tail t digits : Text),
    (∀ p ∈ pieces, (∀ c ∈ p.1, c ∈ [' ', '\t', '\r', '\n']) ∧ p.2.1 ∈ [[], ['0', 'x'], ['0', 'X']] ∧
      ∀ c ∈ p.2.2, c ∈ "0123456789ABCDEFabcdef".toList) →
    (∀ p ∈ pieces.tail, p.1 ≠ []) → (∀ c ∈ tail, c ∈ [' ', '\t', '\r', '\n']) →
    t = (pieces.map fun p => p.1 ++ p.2.1 ++ p.2.2).flatten ++ tail →
    digits = (pieces.map fun p => p.2.2).flatten →
    (∀ f : CanFrame, exec (.parseTranscript t) s = .next { s with responses := s.responses ++ [.canFrame f] } ↔
      digits.map Char.toUpper =
        ((List.range 8).map fun k => "0123456789ABCDEF".toList.getD (f.id.toNat / 16 ^ (7 - k) % 16) '?') ++
        (f.data.toList.map fun b => ["0123456789ABCDEF".toList.getD (b.toNat / 16) '?',
          "0123456789ABCDEF".toList.getD (b.toNat % 16) '?']).flatten) ∧
    (digits.length ≠ 24 →
      exec (.parseTranscript t) s = .next { s with responses := s.responses ++ [.fault .formatError] })
end

