-- ==== Sys2Proof/Laws/Decode.lean ====
section
/-!
SUPPORT. What the decoder can answer, once for all inputs.
-/

namespace Sys2Proof

/-- The decoder answers an operation exactly when the input names it and it has no defect. -/
theorem decode_eq_ok_iff (P : Params) (p : Input) (i : Instr) :
    decode P p = .ok i ↔ select p = i ∧ i.WellFormed P := by
  unfold decode
  split <;> rename_i h
  · simp only [Except.ok.injEq]
    exact ⟨fun e => ⟨e, e ▸ h⟩, fun e => e.1⟩
  · simp only [reduceCtorEq, false_iff]
    rintro ⟨rfl, w⟩
    rw [Instr.WellFormed, h] at w
    cases w

/-- The decoder rejects with the defect of the operation the input names. -/
theorem decode_eq_error_iff (P : Params) (p : Input) (e : IllFormed) :
    decode P p = .error e ↔ (select p).defect P = some e := by
  unfold decode
  split <;> rename_i h <;> simp [h]

/-- The rows of the frame-class table match disjoint sets of frames but for the last, which matches every frame
(30_encoding.md R67). -/
theorem frameRows_disjoint : (frameRows.take 3).Pairwise fun x y => x.mask = y.mask ∧ x.pattern ≠ y.pattern := by
  decide

theorem frameRows_last_fits (f : BitVec 96) : (⟨.command, 0, 0⟩ : FrameRow).fits f = true := by
  simp [FrameRow.fits]

end Sys2Proof
end

