-- ==== Sys2Proof/Laws/Payload.lean ====
section
/-!
SUPPORT. What writing a payload and reading it back gives, and what a byte sequence becomes.
-/

namespace Sys2Proof.Machine

/-- Two bytes of a word, put together, are the word. -/
theorem be16_byteOf (v : BitVec 16) : be16 (byteOf v 1) (byteOf v 0) = v := by
  apply BitVec.eq_of_getLsbD_eq
  intro i hi
  simp only [be16, byteOf, BitVec.getLsbD_append, BitVec.getLsbD_extractLsb']
  by_cases h : i < 8
  · simp [h]
  · have h2 : i - 8 < 8 := by omega
    simp [h, h2, show 8 + (i - 8) = i by omega]

/-- Four bytes of a word, put together, are the word. -/
theorem be32_byteOf (v : Word) : be32 (byteOf v 3) (byteOf v 2) (byteOf v 1) (byteOf v 0) = v := by
  apply BitVec.eq_of_getLsbD_eq
  intro i hi
  simp only [be32, byteOf, BitVec.getLsbD_append, BitVec.getLsbD_extractLsb']
  by_cases h : i < 8
  · simp [h]
  · by_cases h1 : i - 8 < 8
    · simp [h, h1, show 8 + (i - 8) = i by omega]
    · by_cases h2 : i - 8 - 8 < 8
      · simp [h, h1, h2, show 16 + (i - 8 - 8) = i by omega]
      · have h3 : i - 8 - 8 - 8 < 8 := by omega
        simp [h, h1, h2, h3, show 24 + (i - 8 - 8 - 8) = i by omega]

@[simp] theorem memRead8_payloadFields (code reserved : Byte) (reg : RegAddr) (word : Word) :
    memRead8 (payloadFields code reserved reg word) 0 = code := by
  simp [memRead8, payloadFields, memWrite16, memWrite32]

@[simp] theorem memRead16_payloadFields (code reserved : Byte) (reg : RegAddr) (word : Word) :
    memRead16 (payloadFields code reserved reg word) 2 = reg := by
  simp [memRead16, payloadFields, memWrite16, memWrite32, be16_byteOf]

@[simp] theorem memRead32_payloadFields (code reserved : Byte) (reg : RegAddr) (word : Word) :
    memRead32 (payloadFields code reserved reg word) 4 = word := by
  simp [memRead32, payloadFields, memWrite16, memWrite32, be32_byteOf]

/-- A byte sequence is a payload exactly when its length is 8. -/
theorem payloadOf_eq_none_iff (pl : List Byte) : payloadOf pl = none ↔ pl.length ≠ 8 := by
  unfold payloadOf
  split <;> simp_all

/-- The payload a byte sequence becomes holds the same bytes. -/
theorem payloadOf_toList {pl : List Byte} {p : Payload} (h : payloadOf pl = some p) : p.toList = pl := by
  unfold payloadOf at h
  split at h
  · cases h; simp
  · cases h

@[simp] theorem payloadOf_payload (p : Payload) : payloadOf p.toList = some p := by
  simp only [payloadOf, Vector.length_toList, dite_true, Option.some.injEq]
  rfl

end Sys2Proof.Machine
end

