-- ==== Sys2Proof/Laws/State.lean ====
section
/-!
SUPPORT. One lemma per field for giving a response, and what `respond` and `raise` can do.
-/

namespace Sys2Proof.Machine

@[simp] theorem answer_params (s : State) (r : Response) : (s.answer r).params = s.params := rfl

@[simp] theorem answer_regRom (s : State) (r : Response) : (s.answer r).regRom = s.regRom := rfl

@[simp] theorem answer_alarmRom (s : State) (r : Response) : (s.answer r).alarmRom = s.alarmRom := rfl

@[simp] theorem answer_pending (s : State) (r : Response) : (s.answer r).pending = s.pending := rfl

@[simp] theorem answer_responses (s : State) (r : Response) :
    (s.answer r).responses = s.responses ++ [r] := rfl

/-- Responding answers exactly one next state. -/
theorem respond_eq_next_iff (r : Response) (s t : State) : respond r s = .next t ↔ t = s.answer r := by
  simp [respond, eq_comm]

/-- Raising a fault answers exactly one next state: the fault is the response. -/
theorem raise_eq_next_iff (c : FaultCause) (s t : State) :
    raise c s = .next t ↔ t = s.answer (.fault c) := respond_eq_next_iff _ _ _

@[simp] theorem respond_ne_refused (r : Response) (s : State) (e : Refusal) : respond r s ≠ .refused e := by
  simp [respond]

@[simp] theorem respond_ne_fault (r : Response) (s : State) (e : Fault) : respond r s ≠ .fault e := by
  simp [respond]

@[simp] theorem raise_ne_refused (c : FaultCause) (s : State) (e : Refusal) : raise c s ≠ .refused e :=
  respond_ne_refused _ _ _

@[simp] theorem raise_ne_fault (c : FaultCause) (s : State) (e : Fault) : raise c s ≠ .fault e :=
  respond_ne_fault _ _ _

end Sys2Proof.Machine
end

