-- ==== Sys2Proof/Laws/Meanings.lean ====
section
/-!
SUPPORT. The two meanings that look at a payload's length, by cases, and every meaning that has no case.
-/

namespace Sys2Proof.Machine

/-- DECODE_FRAME on a payload: the frame is the response. -/
theorem execDecodeFrame_payload (id : Word) (p : Payload) (s : State) :
    execDecodeFrame id p.toList s =
      respond (.frame (decodedFrame s.regRom (classOfCode (memRead8 p 0)) id p)) s := by
  simp [execDecodeFrame]

/-- DECODE_FRAME on any other length: the fault is the response. -/
theorem execDecodeFrame_other (id : Word) {pl : List Byte} (h : payloadOf pl = none) (s : State) :
    execDecodeFrame id pl s = raise (.malformedPayload pl.length) s := by
  simp [execDecodeFrame, h]

/-- FRAME_TO_DISPLAY on a payload: the text is the response. -/
theorem execFrameToDisplay_payload (id : Word) (p : Payload) (s : State) :
    execFrameToDisplay id p.toList s = respond (.text (displayText id p)) s := by
  simp [execFrameToDisplay]

/-- FRAME_TO_DISPLAY on any other length is refused. -/
theorem execFrameToDisplay_other (id : Word) {pl : List Byte} (h : payloadOf pl = none) (s : State) :
    execFrameToDisplay id pl s = .refused (.displayOfNonFrame pl.length) := by
  simp [execFrameToDisplay, h]

/-- PARSE_TRANSCRIPT on a text that is a transcript: the frame is the response. -/
theorem execParseTranscript_some {t : Text} {f : CanFrame} (h : parseTranscriptOf t = some f) (s : State) :
    execParseTranscript t s = respond (.canFrame f) s := by
  simp [execParseTranscript, h]

/-- PARSE_TRANSCRIPT on any other text: the fault is the response. -/
theorem execParseTranscript_none {t : Text} (h : parseTranscriptOf t = none) (s : State) :
    execParseTranscript t s = raise .formatError s := by
  simp [execParseTranscript, h]

end Sys2Proof.Machine
end

