-- ==== Sys2Proof/Laws/PerInstr.lean ====
section
/-!
SUPPORT. Family `Row`: the encoding of an operation carries the bits of its row in spec/opcode_table.json, and an
operation of the group TEXT, which has no encoding, is a call.
-/

namespace Sys2Proof.Laws

/-- Mask and match of an operation's row in spec/opcode_table.json; none for a row whose encoding is "none". -/
def Row.bits : Instr → Option (Nat × Nat)
  | .lookup _ => some (0x7, 0x0)
  | .buildId _ _ => some (0x7, 0x1)
  | .parseId _ => some (0x7, 0x2)
  | .buildPayload _ _ _ => some (0x7, 0x3)
  | .decodeFrame _ _ => some (0x7, 0x4)
  | .frameToDisplay _ _ => some (0x7, 0x5)
  | .reservedOp _ => some (0x6, 0x6)
  | .buildIdDefault _ => some (0x7, 0x1)
  | .respOk _ _ _ _ => some (0x00000000FF00000000000000, 0x00000000F000000000000000)
  | .respDefaulted _ _ _ _ => some (0x00000000FF00000000000000, 0x00000000F100000000000000)
  | .respFail _ _ _ _ => some (0x00000000FF00000000000000, 0x00000000F200000000000000)
  | .command _ _ _ _ _ => some (0, 0)
  | .hexBytes _ => none
  | .renderValue _ _ => none
  | .alarmText _ => none
  | .parseTranscript _ => none

/-- The bits of an input as the table numbers them: the selector of a request, the 96 bits of a wire frame. -/
def Row.inputBits : Input → Option Nat
  | .request r => some r.op.toNat
  | .wire f => some f.toNat
  | .call _ => none

/-- The encoding of `i` matches the row of `i`. -/
def Row.Statement (i : Instr) : Prop :=
  (Row.inputBits (encode i)).map (fun b => b &&& ((Row.bits i).map Prod.fst).getD 0) =
    (Row.bits i).map Prod.snd

/-- The return code of a wire form, under the mask of the frame-class rows. -/
theorem Row.wireForm_and_mask (id : Word) (code reserved : Byte) (reg : RegAddr) (word : Word) :
    (wireForm id code reserved reg word).toNat &&& 0x00000000FF00000000000000 = code.toNat * 2 ^ 56 := by
  have h : wireForm id code reserved reg word &&& 0x00000000FF00000000000000#96
      = (code.setWidth 96) <<< 56 := by
    apply BitVec.eq_of_getLsbD_eq
    intro i hi
    have hm : (0x00000000FF00000000000000#96).getLsbD i = (decide (56 ≤ i) && decide (i < 64)) := by
      have : ∀ k : Fin 96, (0x00000000FF00000000000000#96).getLsbD k = (decide (56 ≤ k.1) && decide (k.1 < 64)) := by
        decide
      exact this ⟨i, hi⟩
    simp only [wireForm, BitVec.getLsbD_and, BitVec.getLsbD_append, BitVec.getLsbD_shiftLeft,
      BitVec.getLsbD_setWidth, hm]
    by_cases h1 : 56 ≤ i
    · by_cases h2 : i < 64
      · have e1 : ¬ i < 32 := by omega
        have e2 : ¬ i - 32 < 16 := by omega
        have e3 : ¬ i - 32 - 16 < 8 := by omega
        have e4 : i - 32 - 16 - 8 < 8 := by omega
        have e5 : i - 32 - 16 - 8 = i - 56 := by omega
        have e6 : i - 56 < 8 := by omega
        simp [h1, h2, e1, e2, e3, e5, e6, hi, show ¬ i < 56 by omega, show i - 56 < 96 by omega]
      · have : 8 ≤ i - 56 := by omega
        simp [h1, h2, BitVec.getLsbD_of_ge _ _ this]
    · simp [h1, show i < 56 by omega]
  have h' := congrArg BitVec.toNat h
  rw [BitVec.toNat_and] at h'
  rw [show (0x00000000FF00000000000000#96).toNat = 0x00000000FF00000000000000 from rfl] at h'
  rw [h', BitVec.toNat_shiftLeft, BitVec.toNat_setWidth, Nat.shiftLeft_eq]
  have := code.isLt
  omega

theorem Row.lookup (addr : RegAddr) : Row.Statement (.lookup addr) := by
  simp [Row.Statement, Row.bits, Row.inputBits, encode, Request.zeros]

theorem Row.buildId (dst src : Nat) : Row.Statement (.buildId dst src) := by
  simp [Row.Statement, Row.bits, Row.inputBits, encode, Request.zeros]

theorem Row.parseId (id : Word) : Row.Statement (.parseId id) := by
  simp [Row.Statement, Row.bits, Row.inputBits, encode, Request.zeros]

theorem Row.buildPayload (addr : RegAddr) (value : Num) (isFloat : Bool) :
    Row.Statement (.buildPayload addr value isFloat) := by
  simp [Row.Statement, Row.bits, Row.inputBits, encode, Request.zeros]

theorem Row.decodeFrame (id : Word) (pl : List Byte) : Row.Statement (.decodeFrame id pl) := by
  simp [Row.Statement, Row.bits, Row.inputBits, encode, Request.zeros]

theorem Row.frameToDisplay (id : Word) (pl : List Byte) : Row.Statement (.frameToDisplay id pl) := by
  simp [Row.Statement, Row.bits, Row.inputBits, encode, Request.zeros]

theorem Row.reservedOp (x : BitVec 1) : Row.Statement (.reservedOp x) := by
  unfold Row.Statement; revert x; decide

theorem Row.buildIdDefault (dst : Nat) : Row.Statement (.buildIdDefault dst) := by
  simp [Row.Statement, Row.bits, Row.inputBits, encode, Request.zeros]

theorem Row.respOk (id : Word) (reserved : Byte) (reg : RegAddr) (word : Word) :
    Row.Statement (.respOk id reserved reg word) := by
  simp only [Row.Statement, Row.bits, Row.inputBits, encode, Option.map_some, Option.getD_some,
    Row.wireForm_and_mask]
  rfl

theorem Row.respDefaulted (id : Word) (reserved : Byte) (reg : RegAddr) (word : Word) :
    Row.Statement (.respDefaulted id reserved reg word) := by
  simp only [Row.Statement, Row.bits, Row.inputBits, encode, Option.map_some, Option.getD_some,
    Row.wireForm_and_mask]
  rfl

theorem Row.respFail (id : Word) (reserved : Byte) (reg : RegAddr) (word : Word) :
    Row.Statement (.respFail id reserved reg word) := by
  simp only [Row.Statement, Row.bits, Row.inputBits, encode, Option.map_some, Option.getD_some,
    Row.wireForm_and_mask]
  rfl

theorem Row.command (id : Word) (code reserved : Byte) (reg : RegAddr) (word : Word) :
    Row.Statement (.command id code reserved reg word) := by
  simp [Row.Statement, Row.bits, Row.inputBits, encode]

theorem Row.hexBytes (bytes : List Byte) : Row.Statement (.hexBytes bytes) := rfl

theorem Row.renderValue (value : DecodedValue) (definition : Option RegDef) :
    Row.Statement (.renderValue value definition) := rfl

theorem Row.alarmText (word : Word) : Row.Statement (.alarmText word) := rfl

theorem Row.parseTranscript (text : Text) : Row.Statement (.parseTranscript text) := rfl

end Sys2Proof.Laws
end

