-- ==== Sys2Proof/Laws/Tables.lean ====
section
/-!
SUPPORT. What a lookup in the Register Table can answer.
-/

namespace Sys2Proof.Machine

/-- A definition that is found stands in the table at that address. -/
theorem mem_of_regRomAt {t : RegTable} {a : RegAddr} {d : RegDef} (h : regRomAt t a = some d) : (a, d) ∈ t := by
  induction t with
  | nil => cases h
  | cons x rest ih =>
    obtain ⟨k, e⟩ := x
    simp only [regRomAt, List.lookup_cons] at h
    by_cases hk : a = k
    · subst hk
      simp at h
      simp [h]
    · have hb : (a == k) = false := by simpa using hk
      rw [hb] at h
      exact List.mem_cons_of_mem _ (ih h)

/-- Nothing is found exactly where the table has no such key. -/
theorem regRomAt_eq_none_iff (t : RegTable) (a : RegAddr) : regRomAt t a = none ↔ ∀ x ∈ t, x.1 ≠ a := by
  induction t with
  | nil => simp [regRomAt]
  | cons x rest ih =>
    obtain ⟨k, e⟩ := x
    simp only [regRomAt, List.lookup_cons] at ih ⊢
    by_cases hk : a = k
    · subst hk; simp
    · have hb : (a == k) = false := by simpa using hk
      rw [hb]
      simp [ih, Ne.symm hk]

end Sys2Proof.Machine
end

