-- ==== Sys2Proof/Laws/TextForms.lean ====
section
/-!
SUPPORT. Hexadecimal digits read back as the number they were written from; what `UNKNOWN_TEXT` can be.
-/

namespace Sys2Proof.Machine

/-- A digit reads as the value it was written from, in either case. -/
theorem hexValue_hexDigit (upper : Bool) {n : Nat} (h : n < 16) :
    hexValue (hexDigit upper n) = some (BitVec.ofNat 4 n) := by
  have all : ∀ (u : Bool) (k : Fin 16), hexValue (hexDigit u k.val) = some (BitVec.ofNat 4 k.val) := by decide
  exact all upper ⟨n, h⟩

/-- A further digit is the least significant one. -/
theorem hexNumber_concat (digits : List (BitVec 4)) (d : BitVec 4) :
    hexNumber (digits ++ [d]) = 16 * hexNumber digits + d.toNat := by
  simp [hexNumber]

/-- Text put behind a text adds its digits behind. -/
theorem hexDigitsIn_append (t u : Text) : hexDigitsIn (t ++ u) = hexDigitsIn t ++ hexDigitsIn u :=
  List.filterMap_append

/-- k digits of n are k digits. -/
theorem length_hexDigitsIn_hexFixed (upper : Bool) (k n : Nat) : (hexDigitsIn (hexFixed upper k n)).length = k := by
  induction k generalizing n with
  | zero => rfl
  | succ k ih =>
    have hd : hexDigitsIn [hexDigit upper (n % 16)] = [BitVec.ofNat 4 (n % 16)] := by
      simp [hexDigitsIn, hexValue_hexDigit upper (Nat.mod_lt n (by decide : 0 < 16))]
    simp [hexFixed, hexDigitsIn_append, hd, ih]

/-- k digits of n read as n modulo 16^k. -/
theorem hexNumber_hexFixed (upper : Bool) (k n : Nat) :
    hexNumber (hexDigitsIn (hexFixed upper k n)) = n % 16 ^ k := by
  induction k generalizing n with
  | zero => simp [hexFixed, hexDigitsIn, hexNumber, Nat.mod_one]
  | succ k ih =>
    have hd : hexDigitsIn [hexDigit upper (n % 16)] = [BitVec.ofNat 4 (n % 16)] := by
      simp [hexDigitsIn, hexValue_hexDigit upper (Nat.mod_lt n (by decide : 0 < 16))]
    have hm : n % 16 ^ (k + 1) = 16 * (n / 16 % 16 ^ k) + n % 16 := by
      rw [Nat.pow_succ, Nat.mul_comm, Nat.mod_mul]; omega
    rw [hexFixed, hexDigitsIn_append, hd, hexNumber_concat, ih, hm]
    simp

/-- Enough digits of a word, one at least, are a rendering of it. -/
theorem rendersHex_hexFixed (upper : Bool) {k : Nat} (word : Word) (hk : 0 < k) (hw : word.toNat < 16 ^ k) :
    rendersHex (hexFixed upper k word.toNat) word = true := by
  have hne : hexDigitsIn (hexFixed upper k word.toNat) ≠ [] := fun h => by
    have := length_hexDigitsIn_hexFixed upper k word.toNat
    rw [h] at this
    simp at this
    omega
  simp [rendersHex, hexNumber_hexFixed, Nat.mod_eq_of_lt hw, hne]

/-- Every plain style renders the word. -/
theorem rendersHex_plainHex (style : HexStyle) (word : Word) : rendersHex (plainHex style word) word = true := by
  have h8 : word.toNat < 16 ^ 8 := word.isLt
  unfold plainHex
  split
  · exact rendersHex_hexFixed _ word (by decide) h8
  · refine rendersHex_hexFixed _ word (by omega) ?_
    have hl : word.toNat < 2 ^ (word.toNat.log2 + 1) := Nat.lt_log2_self
    have hp : 2 ^ (word.toNat.log2 + 1) ≤ 2 ^ (4 * (word.toNat.log2 / 4 + 1)) :=
      Nat.pow_le_pow_right (by decide) (by omega)
    rw [show (16 : Nat) = 2 ^ 4 from rfl, ← Nat.pow_mul]
    omega

/-- What `UNKNOWN_TEXT` ends with renders the word, the free form included (44_text_forms.md R147). -/
theorem rendersHex_unknownHexText (form : HexForm) (word : Word) :
    rendersHex (unknownHexText form word) word = true := by
  cases form with
  | plain style => exact rendersHex_plainHex style word
  | free =>
    unfold unknownHexText
    dsimp only
    split
    · assumption
    · exact rendersHex_plainHex { upper := true, padded := true } word

/-- A text renders one word only. -/
theorem rendersHex_unique {t : Text} {word word' : Word} (h : rendersHex t word = true)
    (h' : rendersHex t word' = true) : word = word' := by
  simp only [rendersHex, Bool.and_eq_true, beq_iff_eq] at h h'
  exact BitVec.eq_of_toNat_eq (h.2.symm.trans h'.2)

end Sys2Proof.Machine
end

