-- ==== Sys2Proof/Tests/Slice0.lean ====
section
/-!
SUPPORT. The smoke test of the well-formedness checks, words decoded by hand from 30_encoding.md, one or two vectors
of 95_test_vectors.md per operation, and a witness for the hypotheses of each statement.
-/

namespace Sys2Proof.Tests

open Sys2Proof.Machine

set_option maxRecDepth 20000

/-- The start state of 95_test_vectors.md, with these inputs presented. -/
def start (pending : List Input) : State where
  params := defaultParams
  regRom := regRomMin
  alarmRom := alarmRomMin
  pending := pending
  responses := []

/-- The same with an admissible table. -/
def admissible (pending : List Input) : State := { start pending with regRom := regRomWitness }

/-- The responses after an outcome. -/
def responsesOf : Host.Outcome State Fault Refusal → List Response
  | .next s => s.responses
  | .fault _ => []
  | .refused _ => []

/-- A row of 95_test_vectors.md section 2.5: code, response, error, note, register, found, tag, word. -/
structure FrameVector where
  rc    : Byte
  resp  : Bool
  err   : Bool
  note  : BitVec 2
  reg   : RegAddr
  found : Bool
  tag   : ValueTag
  word  : Word
deriving DecidableEq

/-- The row of the one frame among the responses. -/
def frameRow : List Response → Option FrameVector
  | [.frame f] => some ⟨f.retCode, f.isResponse, f.error, f.note, f.reg, f.found, f.value.tag, f.value.word⟩
  | _ => none

/-! ### Well-formedness: each check refuses -/

theorem test_wide_destination_ill_formed : ¬ (Instr.buildId 0x100 0).WellFormed defaultParams := by decide

theorem test_wide_source_ill_formed : ¬ (Instr.buildId 0 0x100).WellFormed defaultParams := by decide

theorem test_wide_default_ill_formed : ¬ (Instr.buildIdDefault 0x100).WellFormed defaultParams := by decide

theorem test_long_decode_ill_formed :
    ¬ (Instr.decodeFrame 0 (List.replicate 16 0)).WellFormed defaultParams := by decide

theorem test_long_display_ill_formed :
    ¬ (Instr.frameToDisplay 0 (List.replicate 16 0)).WellFormed defaultParams := by decide

theorem test_response_code_command_ill_formed :
    ¬ (Instr.command 0 0xF1 0 0 0).WellFormed defaultParams := by decide

/-! ### Words written out from the spec's encodings (30_encoding.md R66, R67, R70) -/

theorem test_decode_lookup : decode defaultParams (.request { Request.zeros 0b000 with addr := 0x0101 })
    = .ok (.lookup 0x0101) := rfl

theorem test_decode_build_id : decode defaultParams (.request { Request.zeros 0b001 with dst := 2, src := 0xA0 })
    = .ok (.buildId 2 0xA0) := rfl

theorem test_decode_build_id_default :
    decode defaultParams (.request { Request.zeros 0b001 with dst := 2, src := 0x55, srcDefault := true })
    = .ok (.buildIdDefault 2) := rfl

theorem test_decode_parse_id : decode defaultParams (.request { Request.zeros 0b010 with id := 0x1581A002 })
    = .ok (.parseId 0x1581A002) := rfl

theorem test_decode_build_payload :
    decode defaultParams (.request { Request.zeros 0b011 with addr := 1, value := .negZero, isFloat := true })
    = .ok (.buildPayload 1 .negZero true) := rfl

theorem test_decode_decode_frame : decode defaultParams (.request { Request.zeros 0b100 with id := 5, pl := [1] })
    = .ok (.decodeFrame 5 [1]) := rfl

theorem test_decode_display : decode defaultParams (.request { Request.zeros 0b101 with id := 5, pl := [1] })
    = .ok (.frameToDisplay 5 [1]) := rfl

theorem test_decode_reserved : decodeTableWord 8 0b110 = some (.reservedOp 0) := by decide

theorem test_decode_resp_ok : decodeTableWord 96 0x1581A002F0000001442F0000
    = some (.respOk 0x1581A002 0 0x0001 0x442F0000) := by decide

theorem test_decode_resp_defaulted : decodeTableWord 96 0x1581A002F1AB010000000005
    = some (.respDefaulted 0x1581A002 0xAB 0x0100 5) := by decide

theorem test_decode_resp_fail : decodeTableWord 96 0x1581A002F20099990000002A
    = some (.respFail 0x1581A002 0 0x9999 0x2A) := by decide

theorem test_decode_command : decodeTableWord 96 0xF2345678F300010100000007
    = some (.command 0xF2345678 0xF3 0 0x0101 7) := by decide

theorem test_decode_text_calls :
    decode defaultParams (.call (.hexBytes [1])) = .ok (.hexBytes [1]) ∧
    decode defaultParams (.call (.renderValue ⟨.int, 1⟩ none)) = .ok (.renderValue ⟨.int, 1⟩ none) ∧
    decode defaultParams (.call (.alarmText 1)) = .ok (.alarmText 1) ∧
    decode defaultParams (.call (.parseTranscript ['1'])) = .ok (.parseTranscript ['1']) := ⟨rfl, rfl, rfl, rfl⟩

theorem test_decode_rejects_by_name :
    decode defaultParams (.request { Request.zeros 1 with dst := 256 }) = .error .addressTooWide ∧
    decode defaultParams (.request { Request.zeros 4 with pl := List.replicate 16 0 })
      = .error .payloadTooLong := ⟨rfl, rfl⟩

theorem test_fetch_word_runs_first : responsesOf (step (State.reset.withFetchWord 8 0b111))
    = [.fault (.illegalOp 7)] := by decide

/-! ### Vectors of 95_test_vectors.md -/

theorem test_lookup_voltage : responsesOf (execLookup 0x0001 (start [])) =
    [.lookup (some { definition := { address := 0x0001, name := "Output Voltage".toList, kind := .roFloat,
                                     unit := some "V".toList, description := [], options := none }
                     isFloat := true, isWritable := false })] := by decide

theorem test_lookup_absent : responsesOf (execLookup 0x9999 (start [])) = [.lookup none] := by decide

theorem test_build_id_masks : responsesOf (execBuildId 0x1A0 0x2FF (start [])) = [.ident 0x1581A0FF] := by decide

theorem test_build_id_default : responsesOf (execBuildIdDefault 0x01 (start [])) = [.ident 0x158101A0] := by decide

theorem test_parse_id_foreign : responsesOf (execParseId 0x1234ABCD (start [])) =
    [.idFields { mxrId := 0x12, moduleType := 0x34, dstAddr := 0xAB, srcAddr := 0xCD }] := by decide

theorem test_parse_id_ones : responsesOf (execParseId 0xFFFFFFFF (start [])) =
    [.idFields { mxrId := 0x1F, moduleType := 0xFF, dstAddr := 0xFF, srcAddr := 0xFF }] := by decide

theorem test_build_payload_tenth : responsesOf (execBuildPayload 0x0001 (.fin (mkRat 1 10)) true (start [])) =
    [.payload #v[0, 0, 0, 1, 0x3D, 0xCC, 0xCC, 0xCD]] := by decide

theorem test_build_payload_truncates : responsesOf (execBuildPayload 0x0101 (.fin (mkRat (-79) 10)) false (start [])) =
    [.payload #v[0, 0, 1, 1, 0xFF, 0xFF, 0xFF, 0xF9]] := by decide

theorem test_decode_frame_failed_unknown :
    frameRow (responsesOf (execDecodeFrame 0x1581A002 [0xF2, 0, 0x99, 0x99, 0, 0, 0, 0x2A] (start []))) =
      some ⟨0xF2, true, true, 2, 0x9999, false, .unknown, 0x2A⟩ := by decide

theorem test_decode_frame_short : responsesOf (execDecodeFrame 0x1581A002 [0xF2, 0, 0, 1, 0x44, 0x2F, 0] (start [])) =
    [.fault (.malformedPayload 7)] := by decide

theorem test_resp_ok_label : frameRow (responsesOf (execRespOk 0x1581A002 0 0x0101 7 (start []))) =
    some ⟨0xF0, true, false, 0, 0x0101, true, .enum, 7⟩ := by decide

theorem test_resp_ok_plain : frameRow (responsesOf (execRespOk 0x1581A002 0 0x0101 0xFFFFFFFF (start []))) =
    some ⟨0xF0, true, false, 0, 0x0101, true, .int, 0xFFFFFFFF⟩ := by decide

theorem test_resp_defaulted_float : frameRow (responsesOf (execRespDefaulted 0x1581A002 0 1 0x442F0000 (start []))) =
    some ⟨0xF1, true, false, 1, 0x0001, true, .float, 0x442F0000⟩ := by decide

theorem test_resp_fail_alarms : frameRow (responsesOf (execRespFail 0x1581A002 0 0x0100 5 (start []))) =
    some ⟨0xF2, true, true, 2, 0x0100, true, .alarms, 5⟩ := by decide

theorem test_command_f3 : frameRow (responsesOf (execCommand 0x1581A002 0xF3 0 1 0x442F0000 (start []))) =
    some ⟨0xF3, false, false, 0, 0x0001, true, .float, 0x442F0000⟩ := by decide

theorem test_reserved_op : responsesOf (execReservedOp 1 (start [])) = [.fault (.illegalOp 7)] := by decide

theorem test_display : responsesOf (execFrameToDisplay 0xF581A002 (List.replicate 8 0xFF) (start [])) =
    [.text "ID: 0xF581A002  DATA: FF FF FF FF FF FF FF FF".toList] := by decide

theorem test_hex_bytes : responsesOf (execHexBytes [0x0A, 0x0B, 0x0C, 0x0D, 0x0E, 0x0F, 0x00, 0xFF] (start [])) =
    [.text "0A 0B 0C 0D 0E 0F 00 FF".toList] := by decide

theorem test_render_negative_label :
    responsesOf (execRenderValue ⟨.enum, 0xFFFFFFFF⟩ (some
      { address := 0, name := [], kind := .roInt, unit := none, description := [], options := some [(-1, ['X'])] })
      (start [])) = [.rendered (.text "-1 (X)".toList)] := by decide

theorem test_render_tie : responsesOf (execRenderValue ⟨.float, 0xBE000000⟩ none (start [])) =
    [.rendered (.rounded (.hundredths (-13)))] := by decide

theorem test_alarm_text : responsesOf (execAlarmText 0x80000001 (start [])) =
    [.text "Input Overvoltage, Bit 31".toList] := by decide

theorem test_parse_transcript : responsesOf (execParseTranscript "0x1581a002 F0000001 442F0000".toList (start [])) =
    [.canFrame ⟨0x1581A002, #v[0xF0, 0, 0, 1, 0x44, 0x2F, 0, 0]⟩] := by decide

theorem test_parse_transcript_display : responsesOf (execParseTranscript
    "ID: 0x1581A002  DATA: F0 00 00 01 44 2F 00 00".toList (start [])) = [.fault .formatError] := by decide

/-- 44_text_forms.md R147: the default, and other renderings of 0x2A. -/
theorem test_unknown_text_default :
    unknownText defaultParams 0x2A = "Unknown register: 0x0000002A".toList := by decide

theorem test_hexadecimal_renderings :
    rendersHex "00 00 00 2a".toList 0x2A = true ∧ rendersHex "0x2A".toList 0x2A = true ∧
    rendersHex "2B".toList 0x2A = false ∧ rendersHex [] 0 = false := by decide

/-! ### Witnesses: the hypotheses of each statement are met -/

theorem witness_table_is_admissible : regRomAdmissible regRomWitness = true := by decide

theorem admissible_inv (pending : List Input) : (admissible pending).Inv where
  params := by
    have h : 8 ≤ defaultParams.aw ∧ 8 ≤ defaultParams.plMax ∧ isNanPattern defaultParams.floatNan = true ∧
      defaultParams.unknownMarker ≠ [] := by decide
    exact h
  regRom := witness_table_is_admissible
  alarmRom := by
    have h : alarmRomAdmissible alarmRomMin = true := by decide
    exact h
  responses := fun r h => absurd h List.not_mem_nil

theorem witness_StepKeepsTheInvariant : ∃ s t : State, s.Inv ∧ step s = .next t :=
  ⟨admissible [.wire 0x1581A002F20099990000002A], _, admissible_inv _, rfl⟩

theorem witness_StepRunsTheDecodedOperation :
    (start [.call (.alarmText 5)]).pending = .call (.alarmText 5) :: [] ∧
    decode (start []).params (.call (.alarmText 5)) = .ok (.alarmText 5) ∧
    decode (start []).params (.request { Request.zeros 1 with dst := 256 }) = .error .addressTooWide ∧
    (start []).pending = [] := ⟨rfl, rfl, rfl, rfl⟩

theorem witness_OperationsOnlyAddOneResponse : ∃ t, exec (.parseId 0x1581A002) (start []) = .next t := ⟨_, rfl⟩

theorem witness_EveryOperationHasAResponse :
    ∀ id pl, Instr.frameToDisplay 0 (List.replicate 8 0) = .frameToDisplay id pl → pl.length = 8 := by
  intro id pl h
  injection h with _ h
  simp [← h]

theorem witness_AnswerIsIndependentOfOtherRequests :
    (step { start [] with pending := .call (.hexBytes [1]) :: [], responses := [] } =
      .next { start [] with pending := [], responses := [] ++ [.text ['0', '1']] }) ∧
    (step { start [] with pending := .request { Request.zeros 1 with dst := 256 } :: [], responses := [] } =
      .fault (.notPresentable .addressTooWide)) ∧
    (step { start [] with pending := .request (Request.zeros 5) :: [], responses := [] } =
      .refused (.displayOfNonFrame 0)) := ⟨rfl, rfl, rfl⟩

theorem witness_SequenceIsAnsweredAsIfEachWereAlone :
    List.Forall₂ (fun p r => step { start [] with pending := [p], responses := [] }
      = .next { start [] with pending := [], responses := [r] })
      [.request (Request.zeros 6), .call (.hexBytes [1])] [.fault (.illegalOp 6), .text ['0', '1']] :=
  .cons rfl (.cons rfl .nil)

theorem witness_DecodeOfEncodeIsTheOperation :
    (Instr.buildId 0xFF 0xFF).WellFormed defaultParams ∧
    (Instr.decodeFrame 0 (List.replicate 15 0)).WellFormed defaultParams ∧
    (Instr.command 0 0xF3 0 0 0).WellFormed defaultParams := by decide

theorem witness_SelectorNamesTheOperation :
    (Request.zeros 0).op = 0 ∧
    ((Request.zeros 1).op = 1 ∧ (Request.zeros 1).srcDefault = false ∧ 0 < 2 ^ defaultParams.aw) ∧
    ({ Request.zeros 1 with srcDefault := true }).op = 1 ∧
    (Request.zeros 2).op = 2 ∧ (Request.zeros 3).op = 3 ∧
    ((Request.zeros 4).op = 4 ∧ (Request.zeros 4).pl.length ≤ defaultParams.plMax) ∧
    ((Request.zeros 5).op = 5 ∧ (Request.zeros 5).pl.length ≤ defaultParams.plMax) := by decide

theorem witness_RequestReadsOnlyTheNamedFields :
    ∃ r r' : Request, r ≠ r' ∧ r.op = r'.op ∧ (r.op = 0 → r.addr = r'.addr) ∧
      (r.op = 1 → r.dst = r'.dst ∧ r.srcDefault = r'.srcDefault ∧ (r.srcDefault = false → r.src = r'.src)) ∧
      (r.op = 2 → r.id = r'.id) ∧
      (r.op = 3 → r.addr = r'.addr ∧ r.value = r'.value ∧ r.isFloat = r'.isFloat) ∧
      (r.op = 4 ∨ r.op = 5 → r.id = r'.id ∧ r.pl = r'.pl) :=
  ⟨{ Request.zeros 1 with srcDefault := true, src := 1 }, { Request.zeros 1 with srcDefault := true, src := 2, id := 7 },
    by decide⟩

theorem witness_WireFrameIsAnsweredAsDecodeFrame : 8 ≤ (start []).params.plMax := by decide

theorem witness_ReservedSelectorIsAnsweredWithIllegalOp :
    (start [.request { Request.zeros 7 with pl := [1] }]).pending = .request { Request.zeros 7 with pl := [1] } :: [] ∧
    ({ Request.zeros 7 with pl := [1] }).op = 7 := ⟨rfl, rfl⟩

theorem witness_WrongLengthIsAnsweredWithMalformedPayload :
    (List.replicate 7 (0 : Byte)).length ≠ 8 ∧ (List.replicate 9 (0 : Byte)).length ≠ 8 := by decide

theorem witness_DisplayOfNonFrameIsRefused : ([] : List Byte).length ≠ 8 := by decide

theorem witness_LookupAnswersTheEntryAtTheAddress :
    tableCanonical (start []).regRom = true ∧ (∃ d, (0x0101, d) ∈ (start []).regRom) ∧
    (∀ x ∈ (start []).regRom, x.1 ≠ 0x9999) ∧ keysAgree (start []).regRom = true := by
  refine ⟨by decide, ⟨_, List.mem_cons_of_mem _ (List.mem_cons_of_mem _ (List.mem_singleton.mpr rfl))⟩,
    by decide, by decide⟩

theorem witness_DefaultSourceIsTheMonitorAddress :
    ∃ (s : State) (r : Request), s.pending = .request r :: [] ∧ r.op = 1 ∧ r.srcDefault = true ∧
      r.dst < 2 ^ s.params.aw ∧ 8 ≤ s.params.aw :=
  ⟨start [.request { Request.zeros 1 with dst := 2, src := 0x55, srcDefault := true }], _, rfl, by decide⟩

theorem witness_BinaryPatternHasItsValue :
    (∃ w : Word, w.toNat / 2 ^ 23 % 256 = 255 ∧ w.toNat % 2 ^ 23 ≠ 0) ∧
    (∃ w : Word, w.toNat / 2 ^ 23 % 256 = 255 ∧ w.toNat % 2 ^ 23 = 0) ∧
    (∃ w : Word, w.toNat / 2 ^ 23 % 256 = 0 ∧ w.toNat % 2 ^ 23 = 0) ∧
    (∃ w : Word, w.toNat / 2 ^ 23 % 256 = 0 ∧ w.toNat % 2 ^ 23 ≠ 0) ∧
    (∃ w : Word, 0 < w.toNat / 2 ^ 23 % 256 ∧ w.toNat / 2 ^ 23 % 256 < 255) :=
  ⟨⟨0xFFC00000, by decide⟩, ⟨0xFF800000, by decide⟩, ⟨0x80000000, by decide⟩, ⟨0x007FFFFF, by decide⟩,
    ⟨0x7F7FFFFF, by decide⟩⟩

theorem witness_ExactFloatIsBuiltAsItsPattern : f32 0xFF800000 ≠ .nan ∧ f32 0x00000001 ≠ .nan := by decide

theorem witness_FloatIsBuiltAsANeighbour :
    f32 (f32Of defaultParams (.fin (mkRat 1 10))) = .fin (mkRat 13421773 134217728) ∧
    f32 (f32Of defaultParams (.fin (mkRat (-1) (2 ^ 151)))) = .negZero ∧
    f32 (f32Of defaultParams (.fin (mkRat (2 ^ 128) 1))) = .posInf ∧
    f32 (f32Of defaultParams (.fin (mkRat (-(2 ^ 128)) 1))) = .negInf ∧
    f32 0x3F800000 = .fin 1 := by decide

/-- Ties to even between 2^24 and 2^24 + 2, between 2^24 + 2 and 2^24 + 4, between 0 and the smallest subnormal;
the last finite value and the first infinity on either side; by hand from the binary32 layout. -/
theorem witness_DefaultFloatIsTheNearestEven :
    defaultParams.floatRule = .nearestEven ∧
    f32Of defaultParams (.fin 16777217) = 0x4B800000 ∧ f32 0x4B800000 = .fin 16777216 ∧
    f32 0x4B800001 = .fin 16777218 ∧ f32Of defaultParams (.fin 16777219) = 0x4B800002 ∧
    f32Of defaultParams (.fin (mkRat (-1) (2 ^ 150))) = 0x80000000 ∧ f32 0x80000000 = .negZero ∧
    f32Of defaultParams (.fin (mkRat (2 ^ 128 - 2 ^ 103) 1)) = 0x7F800000 ∧
    f32Of defaultParams (.fin (mkRat (2 ^ 128 - 2 ^ 103 - 1) 1)) = 0x7F7FFFFF ∧
    f32Of defaultParams (.fin (mkRat (-(2 ^ 128 - 2 ^ 103)) 1)) = 0xFF800000 := by decide

theorem witness_NanIsBuiltAsANanPattern : ∃ s : State, s.Inv := ⟨admissible [], admissible_inv []⟩

theorem witness_IntegerIsBuiltInTwosComplement :
    (-2 ^ 31 ≤ (-2147483648 : Int) ∧ (-2147483648 : Int) ≤ 2 ^ 31 - 1) ∧
    (-2 ^ 31 ≤ (2147483647 : Int) ∧ (2147483647 : Int) ≤ 2 ^ 31 - 1) ∧
    ¬ (-2 ^ 31 ≤ (2147483648 : Int) ∧ (2147483648 : Int) ≤ 2 ^ 31 - 1) ∧
    ¬ (-2 ^ 31 ≤ (-2147483649 : Int) ∧ (-2147483649 : Int) ≤ 2 ^ 31 - 1) ∧
    defaultParams.intRule = .towardZero := by decide

theorem witness_TagFollowsThePriorityChain :
    regRomAt (start []).regRom 0x9999 = none ∧
    ((regRomAt (start []).regRom 0x0001).any fun d => d.kind = .roFloat) = true ∧
    ((regRomAt (start []).regRom 0x0101).any fun d =>
      d.kind = .roInt && optionLabel d (7 : Word).toInt == some "Running".toList) = true ∧
    ((regRomAt (start []).regRom 0x0100).any fun d => d.kind = .roInt && (optionLabel d (5 : Word).toInt).isNone) = true ∧
    ((regRomAt (start []).regRom 0x0101).any fun d => d.kind = .roInt && (optionLabel d (8 : Word).toInt).isNone) = true := by
  decide

theorem witness_FrameFieldsDependOnTheirOperandsOnly :
    ∃ p p' : Payload, p ≠ p' ∧ p[0] = p'[0] ∧ p[2] = p'[2] ∧ p[3] = p'[3] ∧ p[4] = p'[4] ∧ p[5] = p'[5] ∧
      p[6] = p'[6] ∧ p[7] = p'[7] :=
  ⟨#v[0xF0, 0, 1, 1, 0, 0, 0, 7], #v[0xF0, 1, 1, 1, 0, 0, 0, 7], by decide⟩

/-- The codes beside the three response codes. -/
theorem witness_FrameClassesAnswerTheirAnnotation :
    ((0xEF : Byte) ≠ 0xF0 ∧ (0xEF : Byte) ≠ 0xF1 ∧ (0xEF : Byte) ≠ 0xF2) ∧
    ((0xF3 : Byte) ≠ 0xF0 ∧ (0xF3 : Byte) ≠ 0xF1 ∧ (0xF3 : Byte) ≠ 0xF2) ∧
    (Instr.command 0 0xEF 0 0 0).WellFormed defaultParams ∧ (Instr.command 0 0xF3 0 0 0).WellFormed defaultParams := by
  decide

theorem witness_DisplayTextShowsTheWholeFrame : ∃ t, exec (.frameToDisplay 0 (#v[0, 0, 0, 0, 0, 0, 0, 0] : Payload).toList)
    (start []) = .next { start [] with responses := (start []).responses ++ [.text t] } := ⟨_, rfl⟩

theorem witness_RenderValueFollowsTheTag : ∃ d, regRomAt (start []).regRom 0x0101 = some d ∧
    optionLabel d (7 : Word).toInt = some "Running".toList := ⟨_, rfl, by decide⟩

theorem witness_UnknownTextShowsTheWord : unknownText defaultParams 0x2A = unknownText defaultParams 0x2A := rfl

theorem witness_FloatIsRoundedToANearestHundredth :
    f32 0x442F0000 = .fin 700 ∧ f32 0x80000000 = .negZero ∧ f32 0x7F800000 = .posInf ∧ f32 0xFF800000 = .negInf ∧
    f32 0x7FC00000 = .nan := by decide

theorem witness_DefaultTieGoesAwayFromZero :
    defaultParams.roundTie = .awayFromZero ∧ f32 0x3E000000 = .fin (mkRat 1 8) ∧
    100 * mkRat 1 8 = ((12 : Nat) : Rat) + 1 / 2 ∧ f32 0xBE000000 = .fin (mkRat (-1) 8) ∧
    100 * mkRat (-1) 8 = -(((12 : Nat) : Rat) + 1 / 2) := by
  refine ⟨rfl, by decide, ?_, by decide, ?_⟩ <;> norm_num [Rat.mkRat_eq_div]

theorem witness_TranscriptHasTwentyFourDigits :
    (∀ c ∈ "15 81 A0 02 F0 00 00 01 44 2F 00 00".toList, isBlank c = true ∨ (hexValue c).isSome = true) ∧
    ("15 81 A0 02 F0 00 00 01 44 2F 00 00".toList.filter fun c => (hexValue c).isSome).length = 24 ∧
    (isBlank 'G' = false ∧ (hexValue 'G').isSome = false ∧ 'G' ≠ 'x' ∧ 'G' ≠ 'X') ∧
    (∀ a : Text, ['1', '0'] = a ++ ['0'] → ∃ b, a.getLast? = some b ∧ isBlank b = false) ∧
    (∀ a : Text, ['0', ' '] = a ++ ['0'] → ∃ b, a.getLast? = some b ∧ isBlank b = false) := by
  refine ⟨?_, by decide, by decide, fun a h => ?_, fun a h => ?_⟩
  rotate_left
  · obtain rfl : ['1'] = a := List.append_inj_left' (t₁ := ['0']) (t₂ := ['0']) h rfl
    exact ⟨'1', rfl, by decide⟩
  · have h' := List.append_inj_right' (s₁ := ['0']) (t₁ := [' ']) (t₂ := ['0']) h rfl
    simp at h'
  have h : ("15 81 A0 02 F0 00 00 01 44 2F 00 00".toList.all fun c => isBlank c || (hexValue c).isSome) = true := by
    decide
  simpa [List.all_eq_true] using h

/-- 44_text_forms.md R150: digits in lower case, a mark on two tokens, a tab and a line feed between tokens. -/
theorem witness_TranscriptIsReadTokenByToken :
    ∃ (pieces : List (Text × Text × Text)) (tail : Text),
      ((∀ p ∈ pieces, (∀ c ∈ p.1, c ∈ [' ', '\t', '\r', '\n']) ∧ p.2.1 ∈ [[], ['0', 'x'], ['0', 'X']] ∧
        ∀ c ∈ p.2.2, c ∈ "0123456789ABCDEFabcdef".toList) ∧
      (∀ p ∈ pieces.tail, p.1 ≠ []) ∧ (∀ c ∈ tail, c ∈ [' ', '\t', '\r', '\n'])) ∧
      responsesOf (exec (.parseTranscript
        ((pieces.map fun p => p.1 ++ p.2.1 ++ p.2.2).flatten ++ tail)) (start [])) =
          [.canFrame ⟨0xFEDCBA98, #v[0xF0, 0, 0, 1, 0xAB, 0xCD, 0xEF, 0x9A]⟩] :=
  ⟨[([], ['0', 'X'], "fedc".toList), (['\t'], [], "bA98".toList), ([' ', '\n'], ['0', 'x'], "f0000001abcdef9a".toList)],
    ['\r'], by simp, by decide⟩

/-- 44_text_forms.md R150: one mark is dropped from the start of a token and no other. -/
theorem test_parse_transcript_inner_mark :
    responsesOf (execParseTranscript "0x0x1581A002 F0000001442F0000".toList (start [])) = [.fault .formatError] := by
  decide

end Sys2Proof.Tests
end

section
/-!
PROOFS. 10_state.md R21: an operation's response is fixed by the parameters and the two tables. Neither the inputs
still waiting nor the responses already given have a part in it.
-/

namespace Sys2Proof.Machine

/-- An operation either responds in every state, with a response that it computes from the parameters and the tables
alone, or is refused in every state for one and the same reason (10_state.md R21; 44_text_forms.md R143). -/
theorem exec_responds_from_constants_or_refuses (i : Instr) :
    (∃ f : Params → RegTable → AlarmTable → Response,
      ∀ s, exec i s = respond (f s.params s.regRom s.alarmRom) s) ∨
    ∃ e, ∀ s, exec i s = .refused e := by
  cases i with
  | decodeFrame id pl =>
    cases h : payloadOf pl with
    | none => exact .inl ⟨fun _ _ _ => _, execDecodeFrame_other id h⟩
    | some p =>
      rw [← payloadOf_toList h]
      exact .inl ⟨fun _ t _ => .frame (decodedFrame t _ id p), execDecodeFrame_payload id p⟩
  | frameToDisplay id pl =>
    cases h : payloadOf pl with
    | none => exact .inr ⟨_, execFrameToDisplay_other id h⟩
    | some p =>
      rw [← payloadOf_toList h]
      exact .inl ⟨fun _ _ _ => _, execFrameToDisplay_payload id p⟩
  | parseTranscript text =>
    cases h : parseTranscriptOf text with
    | none => exact .inl ⟨fun _ _ _ => _, execParseTranscript_none h⟩
    | some f => exact .inl ⟨fun _ _ _ => _, execParseTranscript_some h⟩
  | lookup addr =>
    exact .inl ⟨fun _ t _ => .lookup ((regRomAt t addr).map fun d => ⟨d, kindIsFloat d.kind, kindIsWritable d.kind⟩),
      fun _ => rfl⟩
  | respOk | respDefaulted | respFail | command =>
    exact .inl ⟨fun _ t _ => .frame (decodedFrame t _ _ _), fun _ => rfl⟩
  | buildPayload addr value isFloat =>
    exact .inl ⟨fun P _ _ => .payload (memWrite32 _ 4 (wireWordOf P value isFloat)), fun _ => rfl⟩
  | renderValue value definition =>
    exact .inl ⟨fun P _ a => .rendered (renderValueOf P a value definition), fun _ => rfl⟩
  | alarmText word => exact .inl ⟨fun _ _ a => .text (alarmTextOf a word), fun _ => rfl⟩
  | buildId | buildIdDefault | parseId | reservedOp | hexBytes => exact .inl ⟨fun _ _ _ => _, fun _ => rfl⟩

/-- A step with an input that decodes runs its operation on the rest of the queue. -/
theorem step_of_decode_ok {s : State} {p : Input} {i : Instr} (hd : decode s.params p = .ok i)
    (rest : List Input) (given : List Response) :
    step { s with pending := p :: rest, responses := given } =
      exec i { s with pending := rest, responses := given } := by
  simp [step, hd]

/-- A step with an input that no port can present stops. -/
theorem step_of_decode_error {s : State} {p : Input} {e : IllFormed} (hd : decode s.params p = .error e)
    (rest : List Input) (given : List Response) :
    step { s with pending := p :: rest, responses := given } = .fault (.notPresentable e) := by
  simp [step, hd]

/-- The next input has one outcome, a response, a fault or a refusal, for every rest of the queue and every history
of responses (10_state.md R21). -/
theorem step_outcome_uniform (s : State) (p : Input) :
    (∃ r, ∀ (rest : List Input) (given : List Response),
      step { s with pending := p :: rest, responses := given } =
        .next { s with pending := rest, responses := given ++ [r] }) ∨
    (∃ e, ∀ (rest : List Input) (given : List Response),
      step { s with pending := p :: rest, responses := given } = .fault e) ∨
    ∃ e, ∀ (rest : List Input) (given : List Response),
      step { s with pending := p :: rest, responses := given } = .refused e := by
  cases hd : decode s.params p with
  | error e => exact .inr (.inl ⟨_, step_of_decode_error hd⟩)
  | ok i =>
    rcases exec_responds_from_constants_or_refuses i with ⟨f, hf⟩ | ⟨e, he⟩
    · exact .inl ⟨f s.params s.regRom s.alarmRom, fun rest given => (step_of_decode_ok hd rest given).trans (hf _)⟩
    · exact .inr (.inr ⟨e, fun rest given => (step_of_decode_ok hd rest given).trans (he _)⟩)

/-- Settles O7: the outcome of the next input is the same for the two queues and the two histories, and where it is a
response, the history determines nothing but what stands before it. -/
theorem answerIsIndependentOfOtherRequests : Obligations.AnswerIsIndependentOfOtherRequests := by
  intro s p rest rest' h h'
  rcases step_outcome_uniform s p with ⟨r, hr⟩ | ⟨e, he⟩ | ⟨e, he⟩
  · simp [hr]
  · simp [he]
  · simp [he]

end Sys2Proof.Machine
end

section
/-!
PROOFS. 20_memory.md R53: BUILD_PAYLOAD answers from its operands and the parameters; the two tables have no part in it.
-/

namespace Sys2Proof.Machine

/-- BUILD_PAYLOAD responds with the payload of the five fields, code and reserved byte zero
(42_payload_build.md R110; 30_encoding.md R63). -/
theorem exec_buildPayload_eq_respond (a : RegAddr) (v : Num) (isFloat : Bool) (s : State) :
    exec (.buildPayload a v isFloat) s =
      respond (.payload (payloadFields 0 0 a (wireWordOf s.params v isFloat))) s := rfl

/-- Settles O28: the payload is made of the operands and the parameters, which a change of the tables keeps, and its
register field reads back as the address. -/
theorem buildPayloadIgnoresTheTables : Obligations.BuildPayloadIgnoresTheTables := by
  intro s a v isFloat
  exact ⟨payloadFields 0 0 a (wireWordOf s.params v isFloat), memRead16_payloadFields 0 0 a _,
    fun t u => exec_buildPayload_eq_respond a v isFloat { s with regRom := t, alarmRom := u }⟩

end Sys2Proof.Machine
end

section
/-!
PROOFS. 30_encoding.md R65: byte 0 of a payload selects the class, and the class fixes the annotation.
-/

namespace Sys2Proof.Machine

@[simp] theorem classOfCode_rcOk : classOfCode rcOk = .respOk := by decide

@[simp] theorem classOfCode_rcDefaulted : classOfCode rcDefaulted = .respDefaulted := by decide

@[simp] theorem classOfCode_rcFail : classOfCode rcFail = .respFail := by decide

/-- Every code but the three response codes is that of a command (30_encoding.md R65). -/
theorem classOfCode_command {rc : Byte} (h0 : rc ≠ rcOk) (h1 : rc ≠ rcDefaulted) (h2 : rc ≠ rcFail) :
    classOfCode rc = .command := by
  simp [classOfCode, h0, h1, h2]

/-- What a class annotates: `is_response`, `error`, `note` and `err_desc` (30_encoding.md R65). -/
def classAnnotation (c : FrameClass) : Bool × Bool × BitVec 2 × Text :=
  (classIsResponse c, classError c, classNote c, classDescription c)

/-- The annotation as a function of the code. The class tests the codes in the other order, which changes nothing:
no two of them are equal. -/
theorem classAnnotation_classOfCode (rc : Byte) :
    classAnnotation (classOfCode rc) =
      if rc = rcOk then (true, false, 0, [])
      else if rc = rcDefaulted then (true, false, 1, "F1: Forced to default value".toList)
      else if rc = rcFail then (true, true, 2, "F2: Failure, discard frame".toList)
      else (false, false, 0, []) := by
  split_ifs with h0 h1 h2
  · rw [h0, classOfCode_rcOk]; rfl
  · rw [h1, classOfCode_rcDefaulted]; rfl
  · rw [h2, classOfCode_rcFail]; rfl
  · rw [classOfCode_command h0 h1 h2]; rfl

/-- Settles O36: the answer to eight bytes is a frame, annotated by the class of byte 0. -/
theorem returnCodeDecidesTheAnnotation : Obligations.ReturnCodeDecidesTheAnnotation := by
  intro s id p
  exact ⟨decodedFrame s.regRom (classOfCode p[0]) id p, execDecodeFrame_payload id p s, rfl,
    classAnnotation_classOfCode p[0]⟩

end Sys2Proof.Machine
end

section
/-!
PROOFS. 30_encoding.md R74: BUILD_ID with `src_default = 1` ignores `src` and takes `MONITOR_ADDR`.
-/

namespace Sys2Proof

/-- A request with op 1 and `src_default = 1` is the form without a source, when its destination fits `AW`. -/
theorem decode_request_buildIdDefault {P : Params} {r : Request} (hop : r.op = 1) (hdef : r.srcDefault = true)
    (hdst : r.dst < 2 ^ P.aw) : decode P (.request r) = .ok (.buildIdDefault r.dst) :=
  (decode_eq_ok_iff _ _ _).2 ⟨by simp [select, selectOp, hop, hdef], if_pos hdst⟩

/-- A request with op 1 and `src_default = 0` is the form with a source, when both addresses fit `AW`. -/
theorem decode_request_buildId {P : Params} {r : Request} (hop : r.op = 1) (hdef : r.srcDefault = false)
    (hdst : r.dst < 2 ^ P.aw) (hsrc : r.src < 2 ^ P.aw) :
    decode P (.request r) = .ok (.buildId r.dst r.src) :=
  (decode_eq_ok_iff _ _ _).2 ⟨by simp [select, selectOp, hop, hdef], if_pos ⟨hdst, hsrc⟩⟩

end Sys2Proof

namespace Sys2Proof.Machine

/-- A step whose next input decodes runs the operation on the rest of the queue. -/
theorem step_of_pending {s : State} {p : Input} {rest : List Input} {i : Instr} (h : s.pending = p :: rest)
    (hd : decode s.params p = .ok i) : step s = exec i { s with pending := rest } := by
  rw [← step_of_decode_ok hd rest s.responses, ← h]

/-- BUILD_ID without a source runs as BUILD_ID with source `MONITOR_ADDR`. -/
theorem exec_buildIdDefault_eq_buildId (dst : Nat) (s : State) :
    exec (.buildIdDefault dst) s = exec (.buildId dst monitorAddr.toNat) s := rfl

/-- `MONITOR_ADDR` is an address of every width the parameter may have (00_scope.md R7). -/
theorem monitorAddr_fits {aw : Nat} (h : 8 ≤ aw) : monitorAddr.toNat < 2 ^ aw :=
  monitorAddr.isLt.trans_le (Nat.pow_le_pow_right (by decide) h)

/-- Settles O21: the two requests decode to the two forms of BUILD_ID, which run alike. -/
theorem defaultSourceIsTheMonitorAddress : Obligations.DefaultSourceIsTheMonitorAddress := by
  intro s r rest hpend hop hdef hdst haw
  refine ⟨buildIdWord r.dst monitorAddr.toNat false, ?_, ?_⟩
  · rw [step_of_pending hpend (decode_request_buildIdDefault hop hdef hdst), exec_buildIdDefault_eq_buildId]
    rfl
  · exact step_of_decode_ok
      (decode_request_buildId (r := { r with srcDefault := false, src := 0xA0 }) hop rfl hdst (monitorAddr_fits haw))
      rest s.responses

end Sys2Proof.Machine
end

section
/-!
PROOFS. 41_id_codec.md R100, R102, R103, R104: the identifier as a number. Building adds the constants and the two
addresses, each at its place; parsing divides by the weight of a place and cuts the quotient to the field's width.
-/

namespace Sys2Proof.Machine

/-- BUILD_ID responds with the identifier of the address pair (41_id_codec.md R100). -/
theorem exec_buildId_eq_respond (dst src : Nat) (s : State) :
    exec (.buildId dst src) s = respond (.ident (buildIdWord dst src false)) s := rfl

/-- PARSE_ID responds with the fields of the identifier (41_id_codec.md R102). -/
theorem exec_parseId_eq_respond (id : Word) (s : State) :
    exec (.parseId id) s = respond (.idFields (idFieldsOf id)) s := rfl

/-- Two responses given in one state leave the same state only when they are the same response. -/
theorem respond_inj {r r' : Response} {s : State} : respond r s = respond r' s ↔ r = r' := by
  refine ⟨fun h => ?_, congrArg (respond · s)⟩
  have hresp := congrArg State.responses ((respond_eq_next_iff r' s _).1 h.symm)
  simpa using hresp

/-- The `k` bits of an identifier from bit `n` up are its quotient by `2 ^ n`, cut to `k` bits. -/
theorem setWidth_ushiftRight_eq_ofNat (id : Word) (n k : Nat) :
    (id >>> n).setWidth k = BitVec.ofNat k (id.toNat / 2 ^ n) :=
  BitVec.eq_of_toNat_eq (by simp [Nat.shiftRight_eq_div_pow])

/-- A mask of the low `k` bits does nothing before a cut to `k` bits. -/
theorem setWidth_and_of_allOnes {n k : Nat} {mask : BitVec n} (h : mask.setWidth k = BitVec.allOnes k)
    (v : BitVec n) : (v &&& mask).setWidth k = v.setWidth k := by
  rw [BitVec.setWidth_and, h, BitVec.and_allOnes]

theorem idMxrId_eq_ofNat (id : Word) : idMxrId id = BitVec.ofNat 5 (id.toNat / 2 ^ 24) :=
  (setWidth_and_of_allOnes (by decide) _).trans (setWidth_ushiftRight_eq_ofNat id 24 5)

theorem idModuleType_eq_ofNat (id : Word) : idModuleType id = BitVec.ofNat 8 (id.toNat / 2 ^ 16) :=
  (setWidth_and_of_allOnes (by decide) _).trans (setWidth_ushiftRight_eq_ofNat id 16 8)

theorem idDstAddr_eq_ofNat (id : Word) : idDstAddr id = BitVec.ofNat 8 (id.toNat / 2 ^ 8) :=
  (setWidth_and_of_allOnes (by decide) _).trans (setWidth_ushiftRight_eq_ofNat id 8 8)

theorem idSrcAddr_eq_ofNat (id : Word) : idSrcAddr id = BitVec.ofNat 8 id.toNat :=
  (setWidth_and_of_allOnes (by decide) _).trans (BitVec.ofNat_toNat 8 id).symm

/-- The four fields as arithmetic on the identifier. -/
theorem idFieldsOf_eq_ofNat (id : Word) : idFieldsOf id =
    { mxrId := BitVec.ofNat 5 (id.toNat / 2 ^ 24)
      moduleType := BitVec.ofNat 8 (id.toNat / 2 ^ 16)
      dstAddr := BitVec.ofNat 8 (id.toNat / 2 ^ 8)
      srcAddr := BitVec.ofNat 8 id.toNat } := by
  simp only [idFieldsOf, idMxrId_eq_ofNat, idModuleType_eq_ofNat, idDstAddr_eq_ofNat, idSrcAddr_eq_ofNat]

/-- The four fields together are bits 28:0, no more and no less. -/
theorem idFieldsOf_eq_iff (id id' : Word) :
    idFieldsOf id = idFieldsOf id' ↔ id.toNat % 2 ^ 29 = id'.toNat % 2 ^ 29 := by
  simp only [idFieldsOf_eq_ofNat, IdFields.mk.injEq, ← BitVec.toNat_inj, BitVec.toNat_ofNat]
  omega

/-- The four parts of an identifier do not overlap, so joining them by `or` adds them. -/
theorem buildIdWord_eq_ofNat (dst src : Nat) :
    buildIdWord dst src false = BitVec.ofNat 32 (0x15810000 + 256 * (dst % 256) + src % 256) := by
  have hsrc : src % 256 < 2 ^ 8 := Nat.mod_lt _ (by decide)
  have haddr : ((dst % 256) <<< 8) + src % 256 < 2 ^ 16 := by omega
  have hconst : mxrId.setWidth 32 <<< 24 ||| moduleType.setWidth 32 <<< 16 = BitVec.ofNat 32 (0x1581 <<< 16) := by
    decide
  have hdst : BitVec.ofNat 32 (dst % 256) <<< 8 = BitVec.ofNat 32 ((dst % 256) <<< 8) :=
    BitVec.eq_of_toNat_eq (by simp [Nat.shiftLeft_eq])
  calc buildIdWord dst src false
      = BitVec.ofNat 32 (0x1581 <<< 16) ||| BitVec.ofNat 32 ((dst % 256) <<< 8) ||| BitVec.ofNat 32 (src % 256) := by
        rw [← hconst, ← hdst]; rfl
    _ = BitVec.ofNat 32 (0x1581 <<< 16 ||| ((dst % 256) <<< 8 ||| src % 256)) := by
        rw [BitVec.ofNat_or, BitVec.ofNat_or, BitVec.or_assoc]
    _ = BitVec.ofNat 32 (0x1581 <<< 16 + ((dst % 256) <<< 8 + src % 256)) := by
        rw [← Nat.shiftLeft_add_eq_or_of_lt hsrc, ← Nat.shiftLeft_add_eq_or_of_lt haddr]
    _ = BitVec.ofNat 32 (0x15810000 + 256 * (dst % 256) + src % 256) := by
        congr 1; omega

/-- The fields of a built identifier are the constants and the addresses cut to eight bits. -/
theorem idFieldsOf_buildIdWord (dst src : Nat) : idFieldsOf (buildIdWord dst src false) =
    { mxrId := mxrId, moduleType := moduleType, dstAddr := BitVec.ofNat 8 dst, srcAddr := BitVec.ofNat 8 src } := by
  have hid : (buildIdWord dst src false).toNat = 0x15810000 + 256 * (dst % 256) + src % 256 := by
    rw [buildIdWord_eq_ofNat, BitVec.toNat_ofNat, Nat.mod_eq_of_lt (by omega)]
  simp only [idFieldsOf_eq_ofNat, hid, IdFields.mk.injEq, ← BitVec.toNat_inj, BitVec.toNat_ofNat, mxrId, moduleType,
    BitVec.reduceToNat]
  omega

/-- Settles O20: the packed identifier, once with the source given and once with `MONITOR_ADDR` for it. -/
theorem buildIdPacksTheFourFields : Obligations.BuildIdPacksTheFourFields := by
  have hbuild (s : State) (dst src : Nat) : exec (.buildId dst src) s = .next { s with
      responses := s.responses ++ [.ident (BitVec.ofNat 32 (0x15810000 + 256 * (dst % 256) + src % 256))] } := by
    rw [exec_buildId_eq_respond, buildIdWord_eq_ofNat]; rfl
  exact ⟨hbuild, fun s dst => (exec_buildIdDefault_eq_buildId dst s).trans (hbuild s dst _)⟩

/-- Settles O23: each field is its quotient, cut to the field's width. -/
theorem parseIdExtractsTheFourFields : Obligations.ParseIdExtractsTheFourFields := by
  intro s id
  rw [exec_parseId_eq_respond, idFieldsOf_eq_ofNat]
  rfl

/-- Settles O24: the responses agree exactly when the fields do. -/
theorem parseIdDropsTheUnusedBits : Obligations.ParseIdDropsTheUnusedBits := by
  intro s id id'
  rw [← idFieldsOf_eq_iff, exec_parseId_eq_respond, exec_parseId_eq_respond, respond_inj, Response.idFields.injEq]

/-- Settles O25: the fields of the built identifier, once with the source given and once with `MONITOR_ADDR` for it. -/
theorem parseOfBuildGivesTheAddresses : Obligations.ParseOfBuildGivesTheAddresses := by
  have hparse (s : State) (dst src : Nat) : ∃ id,
      exec (.buildId dst src) s = respond (.ident id) s ∧
      exec (.parseId id) s = respond (.idFields ⟨mxrId, moduleType, BitVec.ofNat 8 dst, BitVec.ofNat 8 src⟩) s :=
    ⟨buildIdWord dst src false, exec_buildId_eq_respond dst src s,
      by rw [exec_parseId_eq_respond, idFieldsOf_buildIdWord]⟩
  exact ⟨hparse, fun s dst => hparse s dst monitorAddr.toNat⟩

end Sys2Proof.Machine
end

section
/-!
PROOFS. 42_payload_build.md R110: the layout of a built payload, its bytes as quotients of the address and the word.
-/

namespace Sys2Proof.Machine

/-- Byte `k` is the quotient by `256 ^ k`, cut to eight bits (00_scope.md R8). -/
theorem byteOf_eq_ofNat {n : Nat} (v : BitVec n) (k : Nat) : byteOf v k = BitVec.ofNat 8 (v.toNat / 2 ^ (8 * k)) := by
  rw [byteOf, BitVec.extractLsb', Nat.shiftRight_eq_div_pow]

/-- The five fields stand one after the other, each with its most significant byte first (30_encoding.md R63). -/
theorem payloadFields_eq_bytes (code reserved : Byte) (reg : RegAddr) (word : Word) :
    payloadFields code reserved reg word = #v[code, reserved, byteOf reg 1, byteOf reg 0,
      byteOf word 3, byteOf word 2, byteOf word 1, byteOf word 0] := rfl

/-- Settles O27: the payload of the five fields, written out byte by byte. -/
theorem buildPayloadLaysOutBigEndian : Obligations.BuildPayloadLaysOutBigEndian := by
  intro s a v isFloat
  refine ⟨wireWordOf s.params v isFloat, rfl, ?_⟩
  rw [exec_buildPayload_eq_respond, payloadFields_eq_bytes]
  simp only [byteOf_eq_ofNat, Nat.mul_zero, Nat.pow_zero, Nat.div_one]
  rfl

end Sys2Proof.Machine
end

section
/-!
PROOFS. 44_text_forms.md R140, R142: the byte text and the display text. A digit is a character of the table of sixteen,
k digits are the quotients by the falling powers of 16, and with a space put before it the byte text is one block of
three characters for each byte, so its length and its bytes can be read off.
-/

namespace Sys2Proof.Machine

/-- HEX_BYTES responds with the text of the bytes (44_text_forms.md R140). -/
theorem exec_hexBytes_eq_respond (bytes : List Byte) (s : State) :
    exec (.hexBytes bytes) s = respond (.text (hexBytesText bytes)) s := rfl

/-- FRAME_TO_DISPLAY on a payload responds with the display text (44_text_forms.md R142). -/
theorem exec_frameToDisplay_eq_respond (id : Word) (p : Payload) (s : State) :
    exec (.frameToDisplay id p.toList) s = respond (.text (displayText id p)) s :=
  execFrameToDisplay_payload id p s

/-! ### Digits -/

/-- The upper-case digit of a value is the character at that place of the table of digits (00_scope.md R13). -/
theorem hexDigit_eq_getD {n : Nat} (h : n < 16) : hexDigit true n = "0123456789ABCDEF".toList.getD n '?' := by
  have all : ∀ k : Fin 16, hexDigit true k.val = "0123456789ABCDEF".toList.getD k.val '?' := by decide
  exact all ⟨n, h⟩

@[simp] theorem length_hexFixed (upper : Bool) (k n : Nat) : (hexFixed upper k n).length = k := by
  induction k generalizing n with
  | zero => rfl
  | succ k ih => simp [hexFixed, ih]

@[simp] theorem length_hex2 (b : Byte) : (hex2 b).length = 2 := length_hexFixed true 2 _

@[simp] theorem length_hex8 (w : Word) : (hex8 w).length = 8 := length_hexFixed true 8 _

/-- Digit `i` of `k`, counted from the left, is the quotient by `16 ^ (k - 1 - i)` modulo 16. -/
theorem hexFixed_eq_map_range (upper : Bool) (k n : Nat) :
    hexFixed upper k n = (List.range k).map fun i => hexDigit upper (n / 16 ^ (k - 1 - i) % 16) := by
  induction k generalizing n with
  | zero => rfl
  | succ k ih =>
    have hquot : ∀ i ∈ List.range k, n / 16 / 16 ^ (k - 1 - i) = n / 16 ^ (k - i) := fun i hi => by
      have hexp : k - i = k - 1 - i + 1 := by have := List.mem_range.1 hi; omega
      rw [Nat.div_div_eq_div_mul, hexp, Nat.pow_succ']
    rw [hexFixed, ih, List.range_succ, List.map_append]
    congr 1
    · exact List.map_congr_left fun i hi => by rw [hquot i hi, Nat.add_sub_cancel]
    · simp

/-- The two digits of a byte are its two halves. -/
theorem hex2_eq_getD (b : Byte) : hex2 b = ["0123456789ABCDEF".toList.getD (b.toNat / 16) '?',
    "0123456789ABCDEF".toList.getD (b.toNat % 16) '?'] := by
  have hhigh : b.toNat / 16 < 16 := Nat.div_lt_of_lt_mul b.isLt
  rw [← hexDigit_eq_getD hhigh, ← hexDigit_eq_getD (Nat.mod_lt _ (by decide))]
  simp [hex2, hexFixed, Nat.mod_eq_of_lt hhigh]

/-- The eight digits of a word, each a quotient of it. -/
theorem hex8_eq_map_getD (w : Word) : hex8 w = (List.range 8).map fun k =>
    "0123456789ABCDEF".toList.getD (w.toNat / 16 ^ (7 - k) % 16) '?' := by
  rw [hex8, hexFixed_eq_map_range]
  exact List.map_congr_left fun k _ => hexDigit_eq_getD (Nat.mod_lt _ (by decide))

/-- Numbers below `16 ^ k` with the same `k` digits are the same. -/
theorem eq_of_hexFixed_eq {upper : Bool} {k m n : Nat} (hm : m < 16 ^ k) (hn : n < 16 ^ k)
    (h : hexFixed upper k m = hexFixed upper k n) : m = n := by
  have hread := congrArg (hexNumber ∘ hexDigitsIn) h
  simpa [hexNumber_hexFixed, Nat.mod_eq_of_lt hm, Nat.mod_eq_of_lt hn] using hread

theorem hex2_injective : Function.Injective hex2 := fun a b h =>
  BitVec.eq_of_toNat_eq (eq_of_hexFixed_eq a.isLt b.isLt h)

theorem hex8_injective : Function.Injective hex8 := fun v w h =>
  BitVec.eq_of_toNat_eq (eq_of_hexFixed_eq v.isLt w.isLt h)

/-! ### Bytes -/

/-- The model's `join` is the library's. -/
theorem join_eq_intercalate (sep : Text) (ts : List Text) : join sep ts = List.intercalate sep ts := by
  induction ts using join.induct with
  | case1 => simp [join]
  | case2 t => simp [join]
  | case3 t u rest ih => simp [join, ih]

/-- A byte with a space before it. -/
def spacedHex2 (b : Byte) : Text := ' ' :: hex2 b

@[simp] theorem length_spacedHex2 (b : Byte) : (spacedHex2 b).length = 3 := by simp [spacedHex2]

theorem spacedHex2_injective : Function.Injective spacedHex2 := fun _ _ h => hex2_injective (List.cons.inj h).2

/-- With a space put before it, the text of one byte or more is one block for each byte. -/
theorem space_hexBytesText_cons (b : Byte) (p : List Byte) :
    ' ' :: hexBytesText (b :: p) = ((b :: p).map spacedHex2).flatten := by
  induction p generalizing b with
  | nil => simp [hexBytesText, join, spacedHex2]
  | cons c p ih =>
    have hcons : hexBytesText (b :: c :: p) = hex2 b ++ ' ' :: hexBytesText (c :: p) := by simp [hexBytesText, join]
    rw [hcons, ih, List.map_cons, List.flatten_cons]; rfl

/-- Two digits a byte and a space between two bytes (44_text_forms.md R140). -/
theorem length_hexBytesText (p : List Byte) : (hexBytesText p).length = 3 * p.length - 1 := by
  cases p with
  | nil => rfl
  | cons b p =>
    have hlen : (hexBytesText (b :: p)).length + 1 = 3 * (b :: p).length := by
      rw [← List.length_cons, space_hexBytesText_cons]
      simp [Function.comp_def, Nat.mul_comm, Nat.mul_add, Nat.add_comm]
    omega

/-- The text of the bytes determines them: blocks of equal length can be told apart. -/
theorem hexBytesText_injective : Function.Injective hexBytesText := fun p q h => by
  have hlen : p.length = q.length := by
    have := congrArg List.length h
    simp only [length_hexBytesText] at this
    omega
  match p, q with
  | [], [] => rfl
  | b :: p, c :: q =>
    have hflat : ((b :: p).map spacedHex2).flatten = ((c :: q).map spacedHex2).flatten := by
      rw [← space_hexBytesText_cons, ← space_hexBytesText_cons, h]
    have hblocks : ((b :: p).map spacedHex2).map List.length = ((c :: q).map spacedHex2).map List.length := by
      simpa [Function.comp_def] using hlen
    exact spacedHex2_injective.list_map (List.eq_iff_flatten_eq.2 ⟨hflat, hblocks⟩)

/-- Settles O40: the model's `join` of the two digits of each byte. -/
theorem hexBytesGivesTwoDigitsAByte : Obligations.HexBytesGivesTwoDigitsAByte := by
  intro s bytes
  refine ⟨hexBytesText bytes, exec_hexBytes_eq_respond bytes s, ?_, length_hexBytesText bytes⟩
  rw [hexBytesText, join_eq_intercalate, funext hex2_eq_getD]

/-! ### The frame -/

/-- The four parts of the display text (44_text_forms.md R142). Proofs rewrite with this equation, since the one Lean
derives from the definition evaluates the string literals. -/
theorem displayText_eq (id : Word) (p : Payload) : displayText id p =
    "ID: 0x".toList ++ hex8 id ++ "  DATA: ".toList ++ hexBytesText p.toList := rfl

/-- Six characters, eight digits, eight characters and the 23 of eight bytes. -/
theorem length_displayText (id : Word) (p : Payload) : (displayText id p).length = 45 := by
  rw [displayText_eq]
  simp [length_hexBytesText]

/-- The display text determines the container and the payload: its parts stand at fixed places. -/
theorem displayText_inj {id id' : Word} {p p' : Payload} (h : displayText id p = displayText id' p') :
    id = id' ∧ p = p' := by
  obtain ⟨hfront, hbytes⟩ := List.append_inj h (by simp)
  have hdigits : hex8 id = hex8 id' := List.append_cancel_left (List.append_cancel_right hfront)
  exact ⟨hex8_injective hdigits, Vector.toList_inj.1 (hexBytesText_injective hbytes)⟩

/-- Settles O41: the display text, its length, and that its parts can be read back. -/
theorem displayTextShowsTheWholeFrame : Obligations.DisplayTextShowsTheWholeFrame := by
  intro s id p
  refine ⟨displayText id p, hexBytesText p.toList, exec_frameToDisplay_eq_respond id p s, ?_,
    exec_hexBytes_eq_respond p.toList s, length_displayText id p, fun id' p' h => ?_⟩
  · rw [displayText_eq, hex8_eq_map_getD]
  · rw [exec_frameToDisplay_eq_respond] at h
    have htext : Response.text (displayText id' p') = .text (displayText id p) := respond_inj.1 h
    exact displayText_inj (Response.text.inj htext)

end Sys2Proof.Machine
end

section
/-!
PROOFS. 30_encoding.md R66, R67: the wire form and its five fields. Writing and reading the fields undo each other, and
the row of the frame-class table that a frame matches first is the class of its byte 0.
-/

namespace Sys2Proof

open Machine

/-- Bits put before other bits weigh `2 ^ w` more. -/
theorem toNat_append_eq_add {v w : Nat} (x : BitVec v) (y : BitVec w) :
    (x ++ y).toNat = x.toNat * 2 ^ w + y.toNat := by
  rw [BitVec.toNat_append, ← Nat.shiftLeft_add_eq_or_of_lt y.isLt, Nat.shiftLeft_eq]

/-- The wire form as a number: the identifier first, the word last (30_encoding.md R66). -/
theorem toNat_wireForm (id : Word) (code reserved : Byte) (reg : RegAddr) (word : Word) :
    (wireForm id code reserved reg word).toNat =
      id.toNat * 2 ^ 64 + code.toNat * 2 ^ 56 + reserved.toNat * 2 ^ 48 + reg.toNat * 2 ^ 32 + word.toNat := by
  change (id ++ code ++ reserved ++ reg ++ word : BitVec (32 + 8 + 8 + 16 + 32)).toNat = _
  simp only [toNat_append_eq_add]
  omega

/-- The bits of a field are the quotient by the weight of the lowest, cut to the field's width. -/
theorem toNat_extractLsb'_eq_div {n : Nat} (v : BitVec n) (start len : Nat) :
    (v.extractLsb' start len).toNat = v.toNat / 2 ^ start % 2 ^ len := by
  rw [BitVec.extractLsb'_toNat, Nat.shiftRight_eq_div_pow]

section
variable (id : Word) (code reserved : Byte) (reg : RegAddr) (word : Word)

@[simp] theorem wireId_wireForm : wireId (wireForm id code reserved reg word) = id := by
  apply BitVec.eq_of_toNat_eq
  rw [wireId, toNat_extractLsb'_eq_div, toNat_wireForm]
  omega

@[simp] theorem wireCode_wireForm : wireCode (wireForm id code reserved reg word) = code := by
  apply BitVec.eq_of_toNat_eq
  rw [wireCode, toNat_extractLsb'_eq_div, toNat_wireForm]
  omega

@[simp] theorem wireReserved_wireForm : wireReserved (wireForm id code reserved reg word) = reserved := by
  apply BitVec.eq_of_toNat_eq
  rw [wireReserved, toNat_extractLsb'_eq_div, toNat_wireForm]
  omega

@[simp] theorem wireReg_wireForm : wireReg (wireForm id code reserved reg word) = reg := by
  apply BitVec.eq_of_toNat_eq
  rw [wireReg, toNat_extractLsb'_eq_div, toNat_wireForm]
  omega

@[simp] theorem wireWord_wireForm : wireWord (wireForm id code reserved reg word) = word := by
  apply BitVec.eq_of_toNat_eq
  rw [wireWord, toNat_extractLsb'_eq_div, toNat_wireForm]
  omega

end

/-- A frame is the wire form of its own five fields. -/
theorem wireForm_fields (f : BitVec 96) :
    wireForm (wireId f) (wireCode f) (wireReserved f) (wireReg f) (wireWord f) = f := by
  apply BitVec.eq_of_toNat_eq
  rw [toNat_wireForm, wireId, wireCode, wireReserved, wireReg, wireWord]
  simp only [toNat_extractLsb'_eq_div]
  omega

/-- The row of the frame-class table for the frames with this byte 0. -/
def codeRow (c : FrameClass) (code : Byte) : FrameRow :=
  ⟨c, 0x00000000FF00000000000000, BitVec.ofNat 96 (code.toNat * 2 ^ 56)⟩

/-- The frame-class table is one row for each response code and a row that fits every frame (30_encoding.md R67). -/
theorem frameRows_eq_codeRows : frameRows =
    [codeRow .respOk rcOk, codeRow .respDefaulted rcDefaulted, codeRow .respFail rcFail, ⟨.command, 0, 0⟩] := rfl

theorem fits_codeRow (c : FrameClass) (code : Byte) (f : BitVec 96) :
    (codeRow c code).fits f = decide (wireCode f = code) := by
  have hmask : (f &&& 0x00000000FF00000000000000).toNat = (wireCode f).toNat * 2 ^ 56 := by
    have := Laws.Row.wireForm_and_mask (wireId f) (wireCode f) (wireReserved f) (wireReg f) (wireWord f)
    rwa [wireForm_fields] at this
  have hcode := code.isLt
  rw [FrameRow.fits, codeRow, Bool.eq_iff_iff, beq_iff_eq, decide_eq_true_iff, ← BitVec.toNat_inj, hmask,
    BitVec.toNat_ofNat, ← BitVec.toNat_inj]
  omega

/-- The class of a wire frame is that of its byte 0 (30_encoding.md R65, R67). -/
theorem frameClassOf_eq_classOfCode (f : BitVec 96) : frameClassOf f = classOfCode (wireCode f) := by
  rw [frameClassOf, frameRows_eq_codeRows]
  simp only [List.find?_cons, fits_codeRow, frameRows_last_fits]
  by_cases h0 : wireCode f = rcOk
  · simp [h0, codeRow]
  by_cases h1 : wireCode f = rcDefaulted
  · simp [h1, codeRow, show rcDefaulted ≠ rcOk by decide]
  by_cases h2 : wireCode f = rcFail
  · simp [h2, codeRow, show rcFail ≠ rcOk by decide, show rcFail ≠ rcDefaulted by decide]
  · simp [h0, h1, h2, classOfCode_command h0 h1 h2]

/-- The operation of a wire frame, by byte 0 (30_encoding.md R67). -/
theorem selectFrame_eq_ite (f : BitVec 96) : selectFrame f =
    if wireCode f = rcOk then .respOk (wireId f) (wireReserved f) (wireReg f) (wireWord f)
    else if wireCode f = rcDefaulted then .respDefaulted (wireId f) (wireReserved f) (wireReg f) (wireWord f)
    else if wireCode f = rcFail then .respFail (wireId f) (wireReserved f) (wireReg f) (wireWord f)
    else .command (wireId f) (wireCode f) (wireReserved f) (wireReg f) (wireWord f) := by
  rw [selectFrame, frameClassOf_eq_classOfCode]
  split_ifs with h0 h1 h2
  · rw [h0, classOfCode_rcOk]
  · rw [h1, classOfCode_rcDefaulted]
  · rw [h2, classOfCode_rcFail]
  · rw [classOfCode_command h0 h1 h2]

/-- COMMAND is well formed with every code but the three response codes (30_encoding.md R67). -/
theorem wellFormed_command_iff (P : Params) (id : Word) (code reserved : Byte) (reg : RegAddr) (word : Word) :
    (Instr.command id code reserved reg word).WellFormed P ↔ code ≠ rcOk ∧ code ≠ rcDefaulted ∧ code ≠ rcFail := by
  simp [Instr.WellFormed, Instr.defect, rcOk, rcDefaulted, rcFail]

/-- A wire frame always decodes: its class leaves no operand out of range. -/
theorem decode_wire (P : Params) (f : BitVec 96) : decode P (.wire f) = .ok (selectFrame f) := by
  refine (decode_eq_ok_iff _ _ _).2 ⟨rfl, ?_⟩
  rw [selectFrame_eq_ite]
  split_ifs with h0 h1 h2
  · rfl
  · rfl
  · rfl
  · exact (wellFormed_command_iff P _ _ _ _ _).2 ⟨h0, h1, h2⟩

/-- No bit of a frame is lost in its operation (30_encoding.md R66). -/
theorem encode_selectFrame (f : BitVec 96) : encode (selectFrame f) = .wire f := by
  have hf := congrArg Input.wire (wireForm_fields f)
  rw [selectFrame_eq_ite]
  split_ifs with h0 h1 h2
  · rwa [h0] at hf
  · rwa [h1] at hf
  · rwa [h2] at hf
  · exact hf

/-- A well-formed operation is the one its encoding names. -/
theorem select_encode {P : Params} {i : Instr} (h : i.WellFormed P) : select (encode i) = i := by
  cases i with
  | reservedOp x => clear h; revert x; decide
  | respOk | respDefaulted | respFail =>
    simp [encode, select, selectFrame_eq_ite, rcOk, rcDefaulted, rcFail]
  | command id code reserved reg word =>
    obtain ⟨h0, h1, h2⟩ := (wellFormed_command_iff P id code reserved reg word).1 h
    simp [encode, select, selectFrame_eq_ite, h0, h1, h2]
  | lookup | buildId | parseId | buildPayload | decodeFrame | frameToDisplay | buildIdDefault | hexBytes | renderValue
  | alarmText | parseTranscript => rfl

/-- Settles O9: the encoding names the operation, and the decoder accepts what is well formed. -/
theorem decodeOfEncodeIsTheOperation : Obligations.DecodeOfEncodeIsTheOperation :=
  fun P _ h => (decode_eq_ok_iff P _ _).2 ⟨select_encode h, h⟩

/-- Settles O13: the decoder's class, with byte 0 read as a number. -/
theorem wireFrameIsClassedByByteZero : Obligations.WireFrameIsClassedByByteZero := by
  intro P f
  have hcode (code : Byte) : wireCode f = code ↔ f.toNat / 2 ^ 56 % 256 = code.toNat := by
    rw [← BitVec.toNat_inj, wireCode, toNat_extractLsb'_eq_div]; rfl
  rw [decode_wire, selectFrame_eq_ite]
  simp only [hcode, rcOk, rcDefaulted, rcFail]
  rfl

/-- Settles O14: the operation of the frame's class carries all its bits. -/
theorem encodeOfDecodedWireFrameIsTheFrame : Obligations.EncodeOfDecodedWireFrameIsTheFrame :=
  fun P f => ⟨selectFrame f, decode_wire P f, encode_selectFrame f⟩

end Sys2Proof

namespace Sys2Proof.Machine

/-- The payload of a wire frame (30_encoding.md R66). -/
def wirePayload (f : BitVec 96) : Payload := payloadFields (wireCode f) (wireReserved f) (wireReg f) (wireWord f)

/-- The operation of a wire frame runs as DECODE_FRAME of its identifier and payload. -/
theorem exec_selectFrame (f : BitVec 96) (s : State) :
    exec (selectFrame f) s = exec (.decodeFrame (wireId f) (wirePayload f).toList) s := by
  have hdec : exec (.decodeFrame (wireId f) (wirePayload f).toList) s =
      respond (.frame (decodedFrame s.regRom (classOfCode (wireCode f)) (wireId f) (wirePayload f))) s := by
    have := execDecodeFrame_payload (wireId f) (wirePayload f) s
    rwa [wirePayload, memRead8_payloadFields] at this
  rw [hdec, selectFrame_eq_ite, wirePayload]
  split_ifs with h0 h1 h2
  · rw [h0, classOfCode_rcOk]; rfl
  · rw [h1, classOfCode_rcDefaulted]; rfl
  · rw [h2, classOfCode_rcFail]; rfl
  · rw [classOfCode_command h0 h1 h2]; rfl

/-- The eight bytes of a wire frame, byte 0 first (20_memory.md R41). -/
theorem wirePayload_toList (f : BitVec 96) : (wirePayload f).toList =
    [f.extractLsb' 56 8, f.extractLsb' 48 8, f.extractLsb' 40 8, f.extractLsb' 32 8,
      f.extractLsb' 24 8, f.extractLsb' 16 8, f.extractLsb' 8 8, f.extractLsb' 0 8] := by
  rw [wirePayload, payloadFields_eq_bytes]
  simp only [byteOf_eq_ofNat, wireCode, wireReserved, wireReg, wireWord, toNat_extractLsb'_eq_div,
    Vector.toList_mk, List.cons.injEq, ← BitVec.toNat_inj, BitVec.toNat_ofNat,
    Nat.reduceMul, true_and, and_true]
  omega

/-- Settles O15: both inputs run DECODE_FRAME on the same identifier and bytes. -/
theorem wireFrameIsAnsweredAsDecodeFrame : Obligations.WireFrameIsAnsweredAsDecodeFrame := by
  intro s f rest hmax
  have hreq (id : Word) (pl : List Byte) (h : pl.length ≤ s.params.plMax) :
      decode s.params (.request { Request.zeros 4 with id := id, pl := pl }) = .ok (.decodeFrame id pl) :=
    (decode_eq_ok_iff _ _ _).2 ⟨rfl, if_pos h⟩
  rw [step_of_decode_ok (decode_wire s.params f) rest s.responses, exec_selectFrame, wirePayload_toList]
  refine (step_of_decode_ok (hreq _ _ ?_) rest s.responses).symm
  exact hmax

end Sys2Proof.Machine
end

section
/-!
PROOFS. 43_decode_frame.md R120 to R133: the fields of a DecodedFrame, and from which operand each is read.
-/

namespace Sys2Proof.Machine

/-- The sign convention of the model is the library's two's complement (00_scope.md R9). -/
theorem signed32_eq_toInt (w : Word) : signed32 w = w.toInt := by
  rw [signed32, BitVec.toInt_eq_toNat_cond]
  have := w.isLt
  split_ifs <;> omega

theorem kindIsFloat_eq_true_iff (k : Kind) : kindIsFloat k = true ↔ k = .roFloat ∨ k = .woFloat := by
  cases k <;> decide

theorem kindIsWritable_eq_true_iff (k : Kind) : kindIsWritable k = true ↔ k = .woFloat ∨ k = .woInt := by
  cases k <;> decide

theorem kindIsFloat_eq_false_iff (k : Kind) : kindIsFloat k = false ↔ k = .roInt ∨ k = .woInt := by
  cases k <;> decide

/-! ### The tag -/

@[simp] theorem tagOf_none (reg : RegAddr) (word : Word) : tagOf none reg word = .unknown := rfl

theorem tagOf_float {d : RegDef} (h : kindIsFloat d.kind = true) (reg : RegAddr) (word : Word) :
    tagOf (some d) reg word = .float := by simp [tagOf, h]

/-- For an integer register the label comes first, then the alarm register (43_decode_frame.md R133). -/
theorem tagOf_int {d : RegDef} (h : kindIsFloat d.kind = false) (reg : RegAddr) (word : Word) :
    tagOf (some d) reg word = if (optionLabel d (signed32 word)).isSome then .enum
      else if reg = alarmReg then .alarms else .int := by simp [tagOf, h]

theorem tagOf_eq_unknown_iff {o : Option RegDef} {reg : RegAddr} {word : Word} :
    tagOf o reg word = .unknown ↔ o = none := by
  cases o with
  | none => simp
  | some d =>
    cases h : kindIsFloat d.kind with
    | true => simp [tagOf_float h]
    | false => rw [tagOf_int h]; split_ifs <;> simp

theorem tagOf_eq_float_iff {o : Option RegDef} {reg : RegAddr} {word : Word} :
    tagOf o reg word = .float ↔ ∃ d, o = some d ∧ kindIsFloat d.kind = true := by
  cases o with
  | none => simp
  | some d =>
    cases h : kindIsFloat d.kind with
    | true => simp [tagOf_float h, h]
    | false => rw [tagOf_int h]; split_ifs <;> simp [h]

theorem label_of_tagOf_eq_enum {o : Option RegDef} {reg : RegAddr} {word : Word} (ht : tagOf o reg word = .enum) :
    ∃ d, o = some d ∧ (optionLabel d (signed32 word)).isSome = true := by
  cases o with
  | none => cases ht
  | some d =>
    cases h : kindIsFloat d.kind with
    | true => rw [tagOf_float h] at ht; cases ht
    | false =>
      rw [tagOf_int h] at ht
      split_ifs at ht with hl
      exact ⟨d, rfl, hl⟩

theorem reg_of_tagOf_eq_alarms {o : Option RegDef} {reg : RegAddr} {word : Word} (ht : tagOf o reg word = .alarms) :
    reg = alarmReg := by
  cases o with
  | none => cases ht
  | some d =>
    cases h : kindIsFloat d.kind with
    | true => rw [tagOf_float h] at ht; cases ht
    | false =>
      rw [tagOf_int h] at ht
      split_ifs at ht with _ hr
      exact hr

/-! ### The answer -/

/-- The frame DECODE_FRAME answers for a payload of eight bytes. -/
def frameOf (s : State) (id : Word) (p : Payload) : DecodedFrame :=
  decodedFrame s.regRom (classOfCode (memRead8 p 0)) id p

/-- DECODE_FRAME on eight bytes responds with their frame (43_decode_frame.md R120). -/
theorem exec_decodeFrame_eq_respond (id : Word) (p : Payload) (s : State) :
    exec (.decodeFrame id p.toList) s = respond (.frame (frameOf s id p)) s := execDecodeFrame_payload id p s

/-- The annotation of a frame is that of its byte 0's class. -/
theorem annotation_frameOf (s : State) (id : Word) (p : Payload) :
    ((frameOf s id p).isResponse, (frameOf s id p).error, (frameOf s id p).note, (frameOf s id p).errDesc) =
      classAnnotation (classOfCode p[0]) := rfl

/-- `be16` as a number (00_scope.md R10). -/
theorem toNat_be16 (b0 b1 : Byte) : (be16 b0 b1).toNat = 2 ^ 8 * b0.toNat + b1.toNat := by
  rw [be16, toNat_append_eq_add, Nat.mul_comm]

/-- `be32` as a number (00_scope.md R10). -/
theorem toNat_be32 (b0 b1 b2 b3 : Byte) : (be32 b0 b1 b2 b3).toNat =
    2 ^ 24 * b0.toNat + 2 ^ 16 * b1.toNat + 2 ^ 8 * b2.toNat + b3.toNat := by
  change (b0 ++ b1 ++ b2 ++ b3 : BitVec (8 + 8 + 8 + 8)).toNat = _
  simp only [toNat_append_eq_add]
  omega

/-- Settles O34: the built payload has code 0, a command's, and its register and word read back. -/
theorem builtPayloadDecodesAsACommand : Obligations.BuiltPayloadDecodesAsACommand := by
  intro s id a v isFloat
  exact ⟨payloadFields 0 0 a (wireWordOf s.params v isFloat), _, exec_buildPayload_eq_respond a v isFloat s, rfl, rfl,
    memRead16_payloadFields 0 0 a _, memRead32_payloadFields 0 0 a _, exec_decodeFrame_eq_respond id _ s,
    memRead16_payloadFields 0 0 a _, rfl, rfl, rfl, rfl, memRead32_payloadFields 0 0 a _⟩

/-- Settles O35: each field is read from its bytes, combined as numbers. -/
theorem decodeFrameReadsTheFields : Obligations.DecodeFrameReadsTheFields := by
  intro s id b0 b1 b2 b3 b4 b5 b6 b7
  have hframe := exec_decodeFrame_eq_respond id #v[b0, b1, b2, b3, b4, b5, b6, b7] s
  exact ⟨_, hframe, exec_parseId_eq_respond id s, rfl, toNat_be16 b2 b3, toNat_be32 b4 b5 b6 b7, rfl, rfl,
    exec_hexBytes_eq_respond _ s, length_hexBytesText [b0, b1, b2, b3, b4, b5, b6, b7]⟩

/-- Settles O37: the tag of the definition found, by its kind and its labels. -/
theorem tagFollowsThePriorityChain : Obligations.TagFollowsThePriorityChain := by
  intro s id p
  have htag : (frameOf s id p).value.tag =
      tagOf (regRomAt s.regRom (frameOf s id p).reg) (frameOf s id p).reg (frameOf s id p).value.word := rfl
  refine ⟨frameOf s id p, exec_decodeFrame_eq_respond id p s, rfl, rfl, fun hnone => ?_, fun d hd => ⟨fun hk => ?_,
    fun hk => ?_⟩⟩
  · rw [htag, hnone, tagOf_none]
  · rw [htag, hd, tagOf_float ((kindIsFloat_eq_true_iff _).2 hk)]
  · rw [htag, hd, tagOf_int ((kindIsFloat_eq_false_iff _).2 hk), signed32_eq_toInt]
    refine ⟨fun l hl => ?_, fun hl hr => ?_, fun hl hr => ?_⟩
    · simp [hl]
    · simp [hl, show (frameOf s id p).reg = alarmReg from hr]
    · simp [hl, show (frameOf s id p).reg ≠ alarmReg from hr]

/-- With the same definition, the tags are alike where the words are, or where no integer register is. -/
theorem tagOf_congr {o : Option RegDef} (reg : RegAddr) {w w' : Word}
    (h : w = w' ∨ ∀ d, o = some d → d.kind = .roFloat ∨ d.kind = .woFloat) : tagOf o reg w = tagOf o reg w' := by
  rcases h with rfl | h
  · rfl
  cases o with
  | none => rfl
  | some d =>
    have hk := (kindIsFloat_eq_true_iff _).2 (h d rfl)
    rw [tagOf_float hk, tagOf_float hk]

/-- Settles O38: each field is a function of the bytes it is read from, and the text tells all bytes apart. -/
theorem frameFieldsDependOnTheirOperandsOnly : Obligations.FrameFieldsDependOnTheirOperandsOnly := by
  intro s s' id id' p p'
  have hreg (h2 : p[2] = p'[2]) (h3 : p[3] = p'[3]) : memRead16 p 2 = memRead16 p' 2 := congrArg₂ be16 h2 h3
  have hword (h4 : p[4] = p'[4]) (h5 : p[5] = p'[5]) (h6 : p[6] = p'[6]) (h7 : p[7] = p'[7]) :
      memRead32 p 4 = memRead32 p' 4 := by
    change be32 p[4] p[5] p[6] p[7] = be32 p'[4] p'[5] p'[6] p'[7]
    rw [h4, h5, h6, h7]
  refine ⟨frameOf s id p, frameOf s' id' p', exec_decodeFrame_eq_respond id p s, exec_decodeFrame_eq_respond id' p' s',
    congrArg idFieldsOf, fun h0 => ?_, fun h2 h3 => ⟨hreg h2 h3, fun ht => ?_⟩, hword, fun h2 h3 ht h => ?_, ?_⟩
  · have ha := (annotation_frameOf s id p).trans (h0 ▸ (annotation_frameOf s' id' p').symm)
    simp only [Prod.mk.injEq] at ha
    exact ⟨h0, ha⟩
  · have hd : regRomAt s.regRom (memRead16 p 2) = regRomAt s'.regRom (memRead16 p' 2) := by rw [ht, hreg h2 h3]
    exact ⟨congrArg Option.isSome hd, hd⟩
  · have htag : tagOf (regRomAt s.regRom (memRead16 p 2)) (memRead16 p 2) (memRead32 p 4) =
        tagOf (regRomAt s.regRom (memRead16 p 2)) (memRead16 p 2) (memRead32 p' 4) :=
      tagOf_congr _ (h.imp_left fun ⟨h4, h5, h6, h7⟩ => hword h4 h5 h6 h7)
    exact htag.trans (by rw [hreg h2 h3, ht]; rfl)
  · exact hexBytesText_injective.eq_iff.trans Vector.toList_inj

/-- Settles O39: a frame of a class has the class's annotation, and its fields read back. -/
theorem frameClassesAnswerTheirAnnotation : Obligations.FrameClassesAnswerTheirAnnotation := by
  intro s id reserved reg word
  have hreg (code : Byte) := memRead16_payloadFields code reserved reg word
  have hword (code : Byte) := memRead32_payloadFields code reserved reg word
  exact ⟨⟨_, rfl, rfl, rfl, rfl, rfl, rfl, hreg _, hword _⟩, ⟨_, rfl, rfl, rfl, rfl, rfl, rfl, hreg _, hword _⟩,
    ⟨_, rfl, rfl, rfl, rfl, rfl, rfl, hreg _, hword _⟩,
    fun code _ _ _ => ⟨_, rfl, rfl, rfl, rfl, rfl, rfl, hreg _, hword _⟩⟩

end Sys2Proof.Machine
end

section
/-!
PROOFS. 41_id_codec.md R101, R105: bits 31:16 of an identifier as a quotient, what is built and what rebuilding writes.
-/

namespace Sys2Proof.Machine

theorem toNat_buildIdWord (dst src : Nat) :
    (buildIdWord dst src false).toNat = 0x15810000 + 256 * (dst % 256) + src % 256 := by
  rw [buildIdWord_eq_ofNat, BitVec.toNat_ofNat, Nat.mod_eq_of_lt (by omega)]

/-- Bits 31:16 hold the constants exactly when the quotient by `2 ^ 16` is theirs (30_encoding.md R68). -/
theorem and_constants_iff (id : Word) : id &&& 0xFFFF0000 = 0x15810000 ↔ id.toNat / 2 ^ 16 = 0x1581 := by
  have hmask : id &&& (0xFFFF0000 : Word) = id >>> 16 <<< 16 := by
    rw [BitVec.shiftLeft_ushiftRight]; rfl
  have hlt := id.isLt
  rw [hmask, ← BitVec.toNat_inj, BitVec.toNat_shiftLeft, BitVec.toNat_ushiftRight, Nat.shiftRight_eq_div_pow,
    Nat.shiftLeft_eq, show (0x15810000 : Word).toNat = 0x15810000 from rfl]
  omega

/-- Every identifier built is well formed (41_id_codec.md R101). -/
theorem buildIdWord_wellFormed (dst src : Nat) : buildIdWord dst src false &&& 0xFFFF0000 = 0x15810000 := by
  rw [and_constants_iff, toNat_buildIdWord]
  omega

theorem buildIdWord_eq_iff (dst src dst' src' : Nat) :
    buildIdWord dst src false = buildIdWord dst' src' false ↔ dst % 256 = dst' % 256 ∧ src % 256 = src' % 256 := by
  rw [← BitVec.toNat_inj, toNat_buildIdWord, toNat_buildIdWord]
  omega

/-- The constants over bits 31:16 and bits 15:0 of the identifier, as a number. -/
theorem toNat_constants_or (id : Word) :
    (0x15810000 ||| (id &&& 0xFFFF) : Word).toNat = 0x15810000 + id.toNat % 2 ^ 16 := by
  have hlow : id.toNat % 2 ^ 16 < 2 ^ 16 := Nat.mod_lt _ (by decide)
  calc (0x15810000 ||| (id &&& 0xFFFF) : Word).toNat
      = 0x1581 <<< 16 ||| (id.toNat &&& 2 ^ 16 - 1) := rfl
    _ = 0x1581 <<< 16 + id.toNat % 2 ^ 16 := by
      rw [Nat.and_two_pow_sub_one_eq_mod, Nat.shiftLeft_add_eq_or_of_lt hlow]

/-- Rebuilding from the parsed addresses keeps bits 15:0 and writes the constants over bits 31:16
(41_id_codec.md R105). -/
theorem buildIdWord_parsed (id : Word) :
    buildIdWord (idDstAddr id).toNat (idSrcAddr id).toNat false = 0x15810000 ||| (id &&& 0xFFFF) := by
  rw [← BitVec.toNat_inj, toNat_buildIdWord, toNat_constants_or, idDstAddr_eq_ofNat, idSrcAddr_eq_ofNat,
    BitVec.toNat_ofNat, BitVec.toNat_ofNat]
  omega

/-- Settles O22: the built identifiers as numbers; the default form is one of them. -/
theorem builtIdentifiersAreWellFormedAndDistinct : Obligations.BuiltIdentifiersAreWellFormedAndDistinct := by
  intro s dst src dst' src'
  exact ⟨_, _, exec_buildId_eq_respond dst src s, exec_buildId_eq_respond dst' src' s, buildIdWord_wellFormed dst src,
    buildIdWord_eq_iff dst src dst' src', _,
    (exec_buildIdDefault_eq_buildId dst s).trans (exec_buildId_eq_respond dst _ s), buildIdWord_wellFormed dst _⟩

/-- Settles O26: what rebuilding gives, and that it is the identifier where bits 31:16 were the constants. -/
theorem buildOfParseRewritesTheConstants : Obligations.BuildOfParseRewritesTheConstants := by
  intro s id
  refine ⟨idFieldsOf id, _, exec_parseId_eq_respond id s, exec_buildId_eq_respond _ _ s, buildIdWord_parsed id, ?_⟩
  change buildIdWord (idDstAddr id).toNat (idSrcAddr id).toNat false = id ↔ _
  rw [buildIdWord_parsed, and_constants_iff, ← BitVec.toNat_inj, toNat_constants_or]
  omega

end Sys2Proof.Machine
end

section
/-!
PROOFS. The invariant: admissible tables at reset, and only legal responses from every step.
-/

namespace Sys2Proof.Machine

/-! ### Reset -/

/-- An admissible table exists (10_state.md R26; notes/assumptions/5.md). -/
theorem regRomWitness_admissible : regRomAdmissible regRomWitness = true := by decide

/-- The table at reset is admissible whatever the free table is (10_state.md R26). -/
theorem initialRegRom_admissible : regRomAdmissible initialRegRom = true := by
  unfold initialRegRom
  split
  · assumption
  · exact regRomWitness_admissible

/-- The alarm labels at reset that the source gives (10_state.md R29). -/
theorem initialAlarmRom_labels : alarmRomAt initialAlarmRom 0 = "Input Overvoltage".toList ∧
    alarmRomAt initialAlarmRom 2 = "Output Overvoltage".toList := by
  simp [alarmRomAt, initialAlarmRom]

theorem defaultParams_admissible : ParamsAdmissible defaultParams := by
  have h : 8 ≤ defaultParams.aw ∧ 8 ≤ defaultParams.plMax ∧ isNanPattern defaultParams.floatNan = true ∧
      defaultParams.unknownMarker ≠ [] := by decide
  exact h

/-- In a table whose definitions carry their own keys, what is found at an address carries it. -/
theorem address_of_regRomAt {t : RegTable} (hk : keysAgree t = true) {a : RegAddr} {d : RegDef}
    (h : regRomAt t a = some d) : d.address = a := by
  have := List.all_eq_true.1 hk (a, d) (mem_of_regRomAt h)
  simpa using this

/-- What an admissible table holds at the addresses the spec names (10_state.md R26, constraints 1 to 5). -/
theorem entries_of_admissible {t : RegTable} (h : regRomAdmissible t = true) :
    (∃ d, regRomAt t 0x0001 = some d ∧ d.address = 0x0001 ∧ d.name = "Output Voltage".toList ∧
      kindIsFloat d.kind = true ∧ d.unit = some "V".toList) ∧
    (∃ d, regRomAt t 0x0100 = some d ∧ d.address = 0x0100 ∧ kindIsFloat d.kind = false ∧ optionLabel d 5 = none) ∧
    (∃ d, regRomAt t 0x0101 = some d ∧ d.address = 0x0101 ∧ d.name = "Status".toList ∧
      kindIsFloat d.kind = false ∧ optionLabel d 7 = some "Running".toList) ∧
    regRomAt t 0x9999 = none := by
  simp only [regRomAdmissible, tableFacts, Bool.and_eq_true, Option.any_eq_true, beq_iff_eq, Bool.not_eq_true',
    Option.isNone_iff_eq_none] at h
  obtain ⟨⟨-, hk⟩, ⟨⟨⟨⟨d1, h1, ⟨n1, f1⟩, u1⟩, d2, h2, f2, l2⟩, d3, h3, ⟨n3, f3⟩, l3⟩, h4⟩, -⟩ := h
  exact ⟨⟨d1, h1, address_of_regRomAt hk h1, n1, f1, u1⟩, ⟨d2, h2, address_of_regRomAt hk h2, f2, l2⟩,
    ⟨d3, h3, address_of_regRomAt hk h3, n3, f3, l3⟩, h4⟩

/-- Settles O1: the entries every admissible table has, and the two labels set at startup. -/
theorem resetHoldsTheKnownTableEntries : Obligations.ResetHoldsTheKnownTableEntries := by
  obtain ⟨h1, h2, h3, h4⟩ := entries_of_admissible initialRegRom_admissible
  exact ⟨rfl, rfl, rfl, h1, h2, h3, h4, initialAlarmRom_labels⟩

/-- Settles O2: parameters and tables at reset are admissible, and no response has been given. -/
theorem resetMeetsTheInvariant : Obligations.ResetMeetsTheInvariant where
  params := defaultParams_admissible
  regRom := initialRegRom_admissible
  alarmRom := by
    obtain ⟨h0, h2⟩ := initialAlarmRom_labels
    exact Bool.and_eq_true_iff.2 ⟨beq_iff_eq.2 h0, beq_iff_eq.2 h2⟩
  responses := fun _ h => absurd h List.not_mem_nil

/-! ### Legal responses -/

theorem classOfCode_eq_respOk_iff {rc : Byte} : classOfCode rc = .respOk ↔ rc = rcOk := by
  refine ⟨fun h => ?_, fun h => h ▸ classOfCode_rcOk⟩
  unfold classOfCode at h
  split_ifs at h with _ _ h0
  exact h0

theorem classOfCode_eq_respDefaulted_iff {rc : Byte} : classOfCode rc = .respDefaulted ↔ rc = rcDefaulted := by
  refine ⟨fun h => ?_, fun h => h ▸ classOfCode_rcDefaulted⟩
  unfold classOfCode at h
  split_ifs at h with _ h1
  exact h1

theorem classOfCode_eq_respFail_iff {rc : Byte} : classOfCode rc = .respFail ↔ rc = rcFail := by
  refine ⟨fun h => ?_, fun h => h ▸ classOfCode_rcFail⟩
  unfold classOfCode at h
  split_ifs at h with h2
  exact h2

/-- Which classes are responses, which is the error, and what they add (30_encoding.md R65). -/
theorem classIsResponse_iff (c : FrameClass) :
    classIsResponse c = true ↔ c = .respOk ∨ c = .respDefaulted ∨ c = .respFail := by
  cases c <;> decide

theorem classError_iff (c : FrameClass) : classError c = true ↔ c = .respFail := by
  cases c <;> decide

theorem classDescription_ne_nil_iff (c : FrameClass) :
    classDescription c ≠ [] ↔ c = .respDefaulted ∨ c = .respFail := by
  cases c <;> decide

theorem toNat_classNote (c : FrameClass) :
    (classNote c).toNat = if c = .respDefaulted then 1 else if c = .respFail then 2 else 0 := by
  cases c <;> decide

/-- Every frame answered is legal (10_state.md R31). -/
theorem frameOf_legal (s : State) (id : Word) (p : Payload) : FrameLegal s.regRom (frameOf s id p) := by
  have hdesc : classError (classOfCode p[0]) = true →
      classDescription (classOfCode p[0]) = classDescription .respFail :=
    fun h => congrArg classDescription ((classError_iff _).1 h)
  have hresp := classIsResponse_iff (classOfCode p[0])
  have herr := classError_iff (classOfCode p[0])
  have hne := classDescription_ne_nil_iff (classOfCode p[0])
  have hnote := toNat_classNote (classOfCode p[0])
  simp only [classOfCode_eq_respOk_iff, classOfCode_eq_respDefaulted_iff, classOfCode_eq_respFail_iff]
    at hresp herr hne hnote
  exact ⟨(length_hexBytesText p.toList).trans (by simp), hresp, herr, hne, hdesc, hnote, rfl, rfl, tagOf_eq_unknown_iff,
    tagOf_eq_float_iff, label_of_tagOf_eq_enum, reg_of_tagOf_eq_alarms⟩

/-- DECODE_FRAME responds legally on a payload of any length. -/
theorem exec_decodeFrame_legal (id : Word) (pl : List Byte) (s : State) :
    ∃ r, exec (.decodeFrame id pl) s = respond r s ∧ ResponseLegal s.regRom r := by
  cases h : payloadOf pl with
  | none => exact ⟨_, execDecodeFrame_other id h s, (payloadOf_eq_none_iff pl).1 h⟩
  | some p =>
    rw [← payloadOf_toList h]
    exact ⟨_, exec_decodeFrame_eq_respond id p s, frameOf_legal s id p⟩

/-- A well-formed operation responds legally or is refused. -/
theorem exec_legal_or_refused {P : Params} {i : Instr} (hw : i.WellFormed P) (s : State) :
    (∃ r, exec i s = respond r s ∧ ResponseLegal s.regRom r) ∨ ∃ e, exec i s = .refused e := by
  have hwire (id : Word) (code reserved : Byte) (reg : RegAddr) (word : Word)
      (henc : encode i = .wire (wireForm id code reserved reg word)) :
      ∃ r, exec i s = respond r s ∧ ResponseLegal s.regRom r := by
    have hi : selectFrame (wireForm id code reserved reg word) = i := by
      have := select_encode hw
      rwa [henc] at this
    rw [← hi, exec_selectFrame]
    exact exec_decodeFrame_legal _ _ s
  cases i with
  | lookup addr =>
    refine .inl ⟨_, rfl, fun f hf => ?_⟩
    obtain ⟨d, hd, rfl⟩ := Option.map_eq_some_iff.1 hf
    exact ⟨⟨addr, hd⟩, rfl, rfl⟩
  | buildId dst src => exact .inl ⟨_, exec_buildId_eq_respond dst src s, buildIdWord_wellFormed dst src⟩
  | buildIdDefault dst => exact .inl ⟨_, exec_buildId_eq_respond dst _ s, buildIdWord_wellFormed dst _⟩
  | buildPayload a v isFloat => exact .inl ⟨_, exec_buildPayload_eq_respond a v isFloat s, rfl, rfl⟩
  | decodeFrame id pl => exact .inl (exec_decodeFrame_legal id pl s)
  | respOk | respDefaulted | respFail | command => exact .inl (hwire _ _ _ _ _ rfl)
  | reservedOp x =>
    have hop : ∀ x : BitVec 1, 0b11#2 ++ x = 6 ∨ 0b11#2 ++ x = 7 := by decide
    exact .inl ⟨_, rfl, hop x⟩
  | frameToDisplay id pl =>
    cases h : payloadOf pl with
    | none => exact .inr ⟨_, execFrameToDisplay_other id h s⟩
    | some p =>
      rw [← payloadOf_toList h]
      exact .inl ⟨_, exec_frameToDisplay_eq_respond id p s, trivial⟩
  | parseTranscript text =>
    cases h : parseTranscriptOf text with
    | none => exact .inl ⟨_, execParseTranscript_none h s, trivial⟩
    | some f => exact .inl ⟨_, execParseTranscript_some h s, trivial⟩
  | parseId | hexBytes | renderValue | alarmText => exact .inl ⟨_, rfl, trivial⟩

/-- A legal response keeps the invariant. -/
theorem answer_inv {s : State} (h : s.Inv) {r : Response} (hr : ResponseLegal s.regRom r) : (s.answer r).Inv where
  params := h.params
  regRom := h.regRom
  alarmRom := h.alarmRom
  responses := by
    intro r' hr'
    rcases List.mem_append.1 hr' with hold | hnew
    · exact h.responses r' hold
    · rwa [List.mem_singleton.1 hnew]

/-- The inputs still waiting have no part in the invariant. -/
theorem inv_with_pending {s : State} (h : s.Inv) (rest : List Input) : ({ s with pending := rest } : State).Inv :=
  ⟨h.params, h.regRom, h.alarmRom, h.responses⟩

/-- Settles O3: an input that decodes is a well-formed operation, and its response is legal. -/
theorem stepKeepsTheInvariant : Obligations.StepKeepsTheInvariant := by
  intro s t hinv hstep
  cases hpend : s.pending with
  | nil =>
    obtain rfl : s = t := by simpa [step, hpend] using hstep
    exact hinv
  | cons p rest =>
    cases hdec : decode s.params p with
    | error e => simp [step, hpend, hdec] at hstep
    | ok i =>
      have hw := ((decode_eq_ok_iff _ _ _).1 hdec).2
      rw [step_of_pending hpend hdec] at hstep
      rcases exec_legal_or_refused hw { s with pending := rest } with ⟨r, hr, hlegal⟩ | ⟨e, he⟩
      · rw [hr, respond_eq_next_iff] at hstep
        exact hstep ▸ answer_inv (inv_with_pending hinv rest) hlegal
      · rw [he] at hstep
        cases hstep

end Sys2Proof.Machine
end

section
/-!
PROOFS. One step: the response of an operation, its frame, and a queue of inputs (10_state.md R21, R38;
70_reset_and_hazards.md R190).
-/

namespace Sys2Proof.Machine

/-- FRAME_TO_DISPLAY on a payload of another length than 8 is the one refusal (44_text_forms.md R143). -/
theorem eq_frameToDisplay_of_refused {i : Instr} {s : State} {e : Refusal} (h : exec i s = .refused e) :
    ∃ id pl, i = .frameToDisplay id pl ∧ payloadOf pl = none := by
  cases i with
  | decodeFrame id pl =>
    obtain ⟨r, hr, -⟩ := exec_decodeFrame_legal id pl s
    exact absurd (hr.symm.trans h) (respond_ne_refused r s e)
  | frameToDisplay id pl =>
    cases hp : payloadOf pl with
    | none => exact ⟨id, pl, rfl, hp⟩
    | some p =>
      rw [← payloadOf_toList hp, exec_frameToDisplay_eq_respond] at h
      exact absurd h (respond_ne_refused _ s e)
  | parseTranscript text =>
    cases hp : parseTranscriptOf text with
    | none => exact absurd ((execParseTranscript_none hp s).symm.trans h) (raise_ne_refused _ s e)
    | some f => exact absurd ((execParseTranscript_some hp s).symm.trans h) (respond_ne_refused _ s e)
  | lookup | buildId | parseId | buildPayload | reservedOp | buildIdDefault | respOk | respDefaulted | respFail
  | command | hexBytes | renderValue | alarmText => cases h

/-- Settles O5: an operation that is not refused responds, and a response changes nothing else. -/
theorem operationsOnlyAddOneResponse : Obligations.OperationsOnlyAddOneResponse := by
  intro i s t h
  rcases exec_responds_from_constants_or_refuses i with ⟨f, hf⟩ | ⟨e, he⟩
  · rw [hf, respond_eq_next_iff] at h
    subst h
    exact ⟨rfl, rfl, rfl, rfl, _, rfl⟩
  · rw [he] at h
    cases h

/-- Settles O6: the one operation that can be refused is refused on other lengths than 8 only. -/
theorem everyOperationHasAResponse : Obligations.EveryOperationHasAResponse := by
  intro i s hlen
  rcases exec_responds_from_constants_or_refuses i with ⟨f, hf⟩ | ⟨e, he⟩
  · exact ⟨_, hf s⟩
  · obtain ⟨id, pl, hi, hnone⟩ := eq_frameToDisplay_of_refused (he s)
    exact absurd (hlen id pl hi) ((payloadOf_eq_none_iff pl).1 hnone)

/-- Running one step more is a step, then the rest of the run. -/
theorem run_succ_of_step {s t : State} (h : step s = .next t) (k : Nat) :
    Host.Core.run core (k + 1) s = Host.Core.run core k t := by
  have hcore : core.step s = .next t := h
  simp only [Host.Core.run, hcore]

/-- Settles O8, by induction on the sequence: the first input is answered before any rest of the queue and after any
history as it is alone (10_state.md R21). -/
theorem sequenceIsAnsweredAsIfEachWereAlone : Obligations.SequenceIsAnsweredAsIfEachWereAlone := by
  intro s ps rs halone later
  induction halone with
  | nil =>
    intro before
    rw [List.append_nil]
    rfl
  | @cons p r ps rs hp _ ih =>
    intro before
    have hstep := (answerIsIndependentOfOtherRequests s p [] (ps ++ later) [] before).1 r hp
    have hrun := ih (before ++ [r])
    rw [List.append_assoc] at hrun
    exact (run_succ_of_step hstep ps.length).trans hrun

/-- Settles O4: the three branches of a step. -/
theorem stepRunsTheDecodedOperation : Obligations.StepRunsTheDecodedOperation := by
  refine ⟨fun s p rest i h hd => step_of_pending h hd, fun s p rest e h hd => ?_, fun s h => ?_⟩
  · simp [step, h, hd]
  · simp [step, h]

/-! ### Reserved selectors and wrong lengths -/

/-- A reserved selector decodes whatever the operands hold (30_encoding.md R71). -/
theorem decode_request_reservedOp (P : Params) {r : Request} (h : r.op = 6 ∨ r.op = 7) :
    decode P (.request r) = .ok (.reservedOp (r.op.extractLsb' 0 1)) := by
  refine (decode_eq_ok_iff _ _ _).2 ⟨?_, rfl⟩
  rcases h with h | h <;> simp [select, selectOp, h]

/-- The selector of a reserved operation is its free bit after two ones. -/
theorem append_extractLsb'_of_reserved : ∀ op : BitVec 3, op = 6 ∨ op = 7 → 0b11#2 ++ op.extractLsb' 0 1 = op := by
  decide

theorem reserved_selector : ∀ x : BitVec 1, 0b11#2 ++ x = if x = 0 then (6 : BitVec 3) else 7 := by
  decide

/-- Settles O16: the reserved operation raises `IllegalOp` with its selector. -/
theorem reservedSelectorIsAnsweredWithIllegalOp : Obligations.ReservedSelectorIsAnsweredWithIllegalOp := by
  refine ⟨fun s r rest hpend hop => ?_, fun s x => ?_, fun _ => rfl⟩
  · rw [step_of_pending hpend (decode_request_reservedOp _ hop)]
    change raise (.illegalOp (0b11#2 ++ r.op.extractLsb' 0 1)) _ = _
    rw [append_extractLsb'_of_reserved r.op hop]
    rfl
  · change raise (.illegalOp (0b11#2 ++ x)) s = _
    rw [reserved_selector]
    rfl

/-- Settles O17: the length is tested first (60_exceptions.md R161). -/
theorem wrongLengthIsAnsweredWithMalformedPayload : Obligations.WrongLengthIsAnsweredWithMalformedPayload :=
  fun s id pl h => ⟨execDecodeFrame_other id ((payloadOf_eq_none_iff pl).2 h) s, rfl⟩

/-- Settles O18: no text is given for a byte sequence that is no payload. -/
theorem displayOfNonFrameIsRefused : Obligations.DisplayOfNonFrameIsRefused :=
  fun s id pl h => execFrameToDisplay_other id ((payloadOf_eq_none_iff pl).2 h) s

/-! ### Requests -/

/-- Settles O10: each word is evaluated. -/
theorem specWordsDecodeToTheirOperations : Obligations.SpecWordsDecodeToTheirOperations := by
  unfold Obligations.SpecWordsDecodeToTheirOperations
  decide

/-- Settles O11: the selector's operation, with the operands that fit their fields. -/
theorem selectorNamesTheOperation : Obligations.SelectorNamesTheOperation := by
  intro P r
  refine ⟨fun h => ?_, decode_request_buildId, decode_request_buildIdDefault, fun h => ?_, fun h => ?_, fun h hpl => ?_,
    fun h hpl => ?_⟩
  · exact (decode_eq_ok_iff _ _ _).2 ⟨by simp [select, selectOp, h], rfl⟩
  · exact (decode_eq_ok_iff _ _ _).2 ⟨by simp [select, selectOp, h], rfl⟩
  · exact (decode_eq_ok_iff _ _ _).2 ⟨by simp [select, selectOp, h], rfl⟩
  · exact (decode_eq_ok_iff _ _ _).2 ⟨by simp [select, selectOp, h], if_pos hpl⟩
  · exact (decode_eq_ok_iff _ _ _).2 ⟨by simp [select, selectOp, h], if_pos hpl⟩

/-- Inputs that name the same operation decode alike. -/
theorem decode_congr (P : Params) {p p' : Input} (h : select p = select p') : decode P p = decode P p' := by
  rw [decode, decode, h]

/-- Settles O12: the operation selected is made of the selector and the fields that agree. -/
theorem requestReadsOnlyTheNamedFields : Obligations.RequestReadsOnlyTheNamedFields := by
  intro P r r' hop h0 h1 h2 h3 h45
  refine decode_congr P ?_
  change selectOp r = selectOp r'
  unfold selectOp
  rw [← hop]
  refine ite_congr rfl (fun c => ?_) fun _ => ite_congr rfl (fun c => ?_) fun _ => ite_congr rfl (fun c => ?_) fun _ =>
    ite_congr rfl (fun c => ?_) fun _ => ite_congr rfl (fun c => ?_) fun _ => ite_congr rfl (fun c => ?_) fun _ => rfl
  · rw [h0 c]
  · obtain ⟨hdst, hdef, hsrc⟩ := h1 c
    exact ite_congr (by rw [hdef]) (fun _ => by rw [hdst])
      fun hfalse => by rw [hdst, hsrc (hdef.trans (Bool.eq_false_of_not_eq_true hfalse))]
  · rw [h2 c]
  · obtain ⟨haddr, hvalue, hfloat⟩ := h3 c
    rw [haddr, hvalue, hfloat]
  · obtain ⟨hid, hpl⟩ := h45 (.inl c)
    rw [hid, hpl]
  · obtain ⟨hid, hpl⟩ := h45 (.inr c)
    rw [hid, hpl]

end Sys2Proof.Machine
end

section
/-!
PROOFS. 40_register_table.md R90: LOOKUP in a table in its one form.
-/

namespace Sys2Proof.Machine

/-- Where the keys rise, an entry of the table is what is found at its key. -/
theorem regRomAt_of_mem {t : RegTable} (ht : t.Pairwise fun x y => x.1 < y.1) {a : RegAddr} {d : RegDef}
    (h : (a, d) ∈ t) : regRomAt t a = some d := by
  induction t with
  | nil => cases h
  | cons x rest ih =>
    obtain ⟨hx, hrest⟩ := List.pairwise_cons.1 ht
    rcases List.mem_cons.1 h with rfl | hmem
    · simp [regRomAt]
    · have hne : (a == x.1) = false := by simpa using (BitVec.ne_of_lt (hx _ hmem)).symm
      rw [regRomAt, List.lookup_cons, hne]
      exact ih hrest hmem

/-- LOOKUP responds with what is found and its two predicates. -/
theorem exec_lookup_eq_respond (a : RegAddr) (s : State) : exec (.lookup a) s =
    respond (.lookup ((regRomAt s.regRom a).map fun d => ⟨d, kindIsFloat d.kind, kindIsWritable d.kind⟩)) s := rfl

/-- Settles O19: what is found at a key, where the keys rise; where there is none; where definitions carry their
keys. -/
theorem lookupAnswersTheEntryAtTheAddress : Obligations.LookupAnswersTheEntryAtTheAddress := by
  refine ⟨fun s a d ht hmem => ?_, fun s a hno => ?_, fun s a hk => ⟨_, exec_lookup_eq_respond a s, fun f hf => ?_⟩⟩
  · have hrise := of_decide_eq_true (Bool.and_eq_true_iff.1 ht).1
    have hfloat : kindIsFloat d.kind = decide (d.kind = .roFloat ∨ d.kind = .woFloat) :=
      Bool.eq_iff_iff.2 ((kindIsFloat_eq_true_iff _).trans decide_eq_true_iff.symm)
    have hwrite : kindIsWritable d.kind = decide (d.kind = .woFloat ∨ d.kind = .woInt) :=
      Bool.eq_iff_iff.2 ((kindIsWritable_eq_true_iff _).trans decide_eq_true_iff.symm)
    rw [exec_lookup_eq_respond, regRomAt_of_mem hrise hmem, Option.map_some, hfloat, hwrite]
    rfl
  · rw [exec_lookup_eq_respond, (regRomAt_eq_none_iff _ _).2 hno]
    rfl
  · obtain ⟨d, hd, rfl⟩ := Option.map_eq_some_iff.1 hf
    exact address_of_regRomAt hk hd

end Sys2Proof.Machine
end

section
/-!
PROOFS. 44_text_forms.md R144, R146, R147: the texts of a value.
-/

namespace Sys2Proof.Machine

/-- ALARM_TEXT responds with the text of the bitmap (44_text_forms.md R146). -/
theorem exec_alarmText_eq_respond (word : Word) (s : State) :
    exec (.alarmText word) s = respond (.text (alarmTextOf s.alarmRom word)) s := rfl

theorem pairwise_setPositions (word : Word) : (setPositions word).Pairwise (· < ·) :=
  (List.pairwise_lt_finRange 32).filter _

theorem mem_setPositions_iff (word : Word) (i : Fin 32) : i ∈ setPositions word ↔ word.toNat.testBit i = true := by
  simp [setPositions, BitVec.getLsbD]

/-- Settles O42: the model's `join` of the labels at the set positions. -/
theorem alarmTextListsTheSetBits : Obligations.AlarmTextListsTheSetBits := by
  intro s word
  refine ⟨setPositions word, pairwise_setPositions word, mem_setPositions_iff word, ?_⟩
  rw [exec_alarmText_eq_respond, alarmTextOf, join_eq_intercalate]
  rfl

/-- The model's decimal form is the library's (00_scope.md R13; decision D16). -/
theorem dec_eq_toString (n : Int) : dec n = (toString n).toList := by
  cases n with
  | ofNat n =>
    rw [dec, if_neg (Int.not_lt.2 (Int.natCast_nonneg n) : ¬ Int.ofNat n < 0)]
    simp [toString, Int.repr, Nat.repr]
  | negSucc n =>
    rw [dec, if_pos (Int.negSucc_lt_zero n)]
    simp [toString, Int.repr, Nat.repr]

/-- RENDER_VALUE responds with the form of the tag (44_text_forms.md R144). -/
theorem exec_renderValue_eq_respond (v : DecodedValue) (d : Option RegDef) (s : State) :
    exec (.renderValue v d) s = respond (.rendered (renderValueOf s.params s.alarmRom v d)) s := rfl

/-- The label printed is the definition's, where it has one. -/
theorem enumLabel_of_label {d : RegDef} {word : Word} {l : Text} (h : optionLabel d word.toInt = some l) :
    enumLabel (some d) word = l := by
  simp [enumLabel, signed32_eq_toInt, h]

/-- Settles O43: the arms of RENDER_VALUE. -/
theorem renderValueFollowsTheTag : Obligations.RenderValueFollowsTheTag := by
  intro s w d
  refine ⟨rfl, ⟨enumLabel d w, ?_, fun d' l hd hl => ?_⟩, ⟨_, rfl, rfl⟩, ?_, rfl⟩
  · rw [exec_renderValue_eq_respond, ← dec_eq_toString, ← signed32_eq_toInt]
    rfl
  · rw [hd, enumLabel_of_label hl]
  · rw [exec_renderValue_eq_respond, ← signed32_eq_toInt]
    rfl

/-- Settles O44: the text after the marker renders one word only; the default is eight digits. -/
theorem unknownTextShowsTheWord : Obligations.UnknownTextShowsTheWord := by
  intro P w w'
  refine ⟨⟨_, rfl, rendersHex_unknownHexText P.unknownHex w⟩, fun h => ?_, ?_⟩
  · have hhex : unknownHexText P.unknownHex w = unknownHexText P.unknownHex w' := List.append_cancel_left h
    exact rendersHex_unique (rendersHex_unknownHexText P.unknownHex w)
      (hhex ▸ rendersHex_unknownHexText P.unknownHex w')
  · rw [← hex8_eq_map_getD]
    rfl

end Sys2Proof.Machine
end

section
/-!
PROOFS. 42_payload_build.md R113: the integer word.
-/

namespace Sys2Proof.Machine

/-- Under the default rule every rational, an integer too, is divided with truncation toward zero. -/
theorem integerOf_towardZero (q : Rat) : integerOf .towardZero q = q.num.tdiv q.den := by
  unfold integerOf
  split_ifs with h
  · simp [h]
  · rfl

/-- Truncation toward zero is the floor of what is not negative and the ceiling of what is. -/
theorem tdiv_num_den (q : Rat) : q.num.tdiv q.den = if 0 ≤ q then ⌊q⌋ else ⌈q⌉ := by
  split_ifs with h
  · rw [Int.tdiv_eq_ediv_of_nonneg (Rat.num_nonneg.2 h), Rat.floor_def']
  · have hneg : 0 ≤ -q.num := by
      have := Rat.num_neg.2 (not_le.1 h)
      omega
    rw [← neg_neg q.num, Int.neg_tdiv, Int.tdiv_eq_ediv_of_nonneg hneg, Rat.ceil_def']

/-- An integer is itself under either rule (42_payload_build.md R113 item 1). -/
theorem integerOf_intCast (rule : IntRule) (i : Int) : integerOf rule (i : Rat) = i := by
  simp [integerOf]

theorem unsigned32_eq_ofInt {i : Int} (h : -2 ^ 31 ≤ i ∧ i ≤ 2 ^ 31 - 1) : unsigned32 i = BitVec.ofInt 32 i := by
  apply BitVec.eq_of_toNat_eq
  rw [unsigned32, BitVec.toNat_ofNat, BitVec.toNat_ofInt]
  split_ifs <;> omega

/-- `I32_OF` of a rational, by the integer made of it (42_payload_build.md R113 item 3). -/
theorem i32Of_fin {P : Params} {q : Rat} {i : Int} (h : integerOf P.intRule q = i) : i32Of P (.fin q) =
    if -2 ^ 31 ≤ i ∧ i ≤ 2 ^ 31 - 1 then BitVec.ofInt 32 i else Config.i32OutOfRange (.fin q) := by
  simp only [i32Of, h]
  by_cases hr : -2 ^ 31 ≤ i ∧ i ≤ 2 ^ 31 - 1
  · rw [if_pos hr, if_pos ⟨hr.1, by omega⟩, unsigned32_eq_ofInt hr]
  · rw [if_neg hr, if_neg fun h => hr ⟨h.1, by omega⟩]

/-- Settles O33: the integer made of an integer, and of a rational under the default rule. -/
theorem integerIsBuiltInTwosComplement : Obligations.IntegerIsBuiltInTwosComplement := by
  refine ⟨fun P i => i32Of_fin (integerOf_intCast _ i), fun P q i hrule hi => i32Of_fin ?_,
    fun P => ⟨rfl, rfl, rfl, rfl⟩⟩
  rw [hrule, integerOf_towardZero, tdiv_num_den, hi]

end Sys2Proof.Machine
end

section
/-!
PROOFS. 00_scope.md R12: the value of a binary32 pattern. The 31 bits below the sign, its magnitude, number the values
that are not negative in their order; `gridValue` is the value of a magnitude, and gives the magnitude of the
infinity the value 2^128 that would come next.
-/

namespace Sys2Proof.Machine

/-! ### Fields -/

/-- The bits of a pattern below its sign. -/
def magnitude (w : Word) : Nat := w.toNat % 2 ^ 31

/-- The magnitude of the two infinities. -/
def infMagnitude : Nat := 0x7F800000

theorem f32Exponent_eq_div (w : Word) : f32Exponent w = magnitude w / 2 ^ 23 := by
  rw [f32Exponent, toNat_extractLsb'_eq_div, magnitude]
  omega

theorem f32Fraction_eq_mod (w : Word) : f32Fraction w = magnitude w % 2 ^ 23 := by
  rw [f32Fraction, toNat_extractLsb'_eq_div, magnitude]
  omega

theorem f32Negative_iff (w : Word) : f32Negative w = true ↔ 2 ^ 31 ≤ w.toNat := by
  have := w.isLt
  rw [f32Negative, ← BitVec.msb_eq_getLsbD_last, BitVec.msb_eq_decide, decide_eq_true_iff]

/-- The exponent is 255 from the magnitude of the infinities on. -/
theorem f32Exponent_eq_255_iff (w : Word) : f32Exponent w = 255 ↔ infMagnitude ≤ magnitude w := by
  have : magnitude w < 2 ^ 31 := Nat.mod_lt _ (by decide)
  rw [f32Exponent_eq_div, infMagnitude]
  omega

/-- With exponent 255 the fraction is not zero beyond the magnitude of the infinities. -/
theorem f32Fraction_ne_zero_iff {w : Word} (h : infMagnitude ≤ magnitude w) :
    f32Fraction w ≠ 0 ↔ infMagnitude < magnitude w := by
  have hlt : magnitude w < 2 ^ 31 := Nat.mod_lt _ (by decide)
  rw [f32Fraction_eq_mod]
  unfold infMagnitude at h ⊢
  omega

/-! ### The grid -/

/-- The exponent of the unit of a magnitude, counted from that of the subnormals. -/
def gridShift (m : Nat) : Nat := m / 2 ^ 23 - 1

/-- The value of a magnitude: an integer below 2^24 times its unit (00_scope.md R12). -/
def gridValue (m : Nat) : Rat := (m - gridShift m * 2 ^ 23 : Nat) * 2 ^ ((gridShift m : Int) - 149)

/-- A magnitude is an integer below 2^24 behind its shift, and from shift 1 on at least 2^23. -/
theorem exists_shift_add (m : Nat) : ∃ j a, m = j * 2 ^ 23 + a ∧ a < 2 ^ 24 ∧ (j = 0 ∨ 2 ^ 23 ≤ a) :=
  ⟨gridShift m, m - gridShift m * 2 ^ 23, by unfold gridShift; omega, by unfold gridShift; omega,
    by unfold gridShift; omega⟩

/-- The value by shift and integer, the integer 2^24, the first of the next shift, included. -/
theorem gridValue_shift_add {j a : Nat} (ha : a ≤ 2 ^ 24) (hj : j = 0 ∨ 2 ^ 23 ≤ a) :
    gridValue (j * 2 ^ 23 + a) = a * 2 ^ ((j : Int) - 149) := by
  rcases ha.lt_or_eq with hlt | rfl
  · have hshift : gridShift (j * 2 ^ 23 + a) = j := by unfold gridShift; omega
    rw [gridValue, hshift, Nat.add_sub_cancel_left]
  · have hshift : gridShift (j * 2 ^ 23 + 2 ^ 24) = j + 1 := by unfold gridShift; omega
    have hrest : j * 2 ^ 23 + 2 ^ 24 - (j + 1) * 2 ^ 23 = 2 ^ 23 := by omega
    have hexp : (2 : Rat) ^ (((j + 1 : Nat) : Int) - 149) = 2 * 2 ^ ((j : Int) - 149) := by
      rw [← zpow_one_add₀ (by norm_num)]; congr 1; push_cast; ring
    rw [gridValue, hshift, hrest, hexp]
    push_cast
    ring

/-- Magnitudes number the values in their order. -/
theorem gridValue_strictMono : StrictMono gridValue := by
  refine strictMono_nat_of_lt_succ fun m => ?_
  obtain ⟨j, a, rfl, ha, hj⟩ := exists_shift_add m
  rw [gridValue_shift_add ha.le hj, Nat.add_assoc, gridValue_shift_add (Nat.succ_le_of_lt ha) (by omega)]
  have hpos : (0 : Rat) < 2 ^ ((j : Int) - 149) := zpow_pos (by norm_num) _
  push_cast
  linarith

@[simp] theorem gridValue_zero : gridValue 0 = 0 := by simp [gridValue]

theorem gridValue_nonneg (m : Nat) : 0 ≤ gridValue m := by
  rw [← gridValue_zero]
  exact gridValue_strictMono.monotone (Nat.zero_le m)

theorem gridValue_infMagnitude : gridValue infMagnitude = 2 ^ 128 := by
  rw [show infMagnitude = 254 * 2 ^ 23 + 2 ^ 23 from rfl, gridValue_shift_add (by decide) (by decide)]
  norm_num

/-- The largest finite value. -/
theorem gridValue_maxFinite : gridValue (infMagnitude - 1) = 2 ^ 128 - 2 ^ 104 := by
  rw [show infMagnitude - 1 = 253 * 2 ^ 23 + (2 ^ 24 - 1) from rfl, gridValue_shift_add (by decide) (by decide)]
  norm_num

/-! ### The value of a pattern -/

/-- The sign of a pattern as a factor. -/
def f32Sign (w : Word) : Rat := if f32Negative w then -1 else 1

/-- A power of two as the quotient of two natural ones, one of which is 1. -/
theorem two_zpow_eq_div (t : Int) : (2 : Rat) ^ t = 2 ^ t.toNat / 2 ^ (-t).toNat := by
  rcases le_total 0 t with h | h
  · rw [Int.toNat_of_nonpos (neg_nonpos.2 h), pow_zero, div_one, ← zpow_natCast, Int.toNat_of_nonneg h]
  · rw [Int.toNat_of_nonpos h, pow_zero, one_div, ← zpow_natCast, Int.toNat_of_nonneg (neg_nonneg.2 h), ← zpow_neg,
      neg_neg]

/-- The integer of a magnitude is the model's significand, and its unit the model's. -/
theorem gridValue_magnitude (w : Word) :
    gridValue (magnitude w) = (f32Significand w * 2 ^ (f32Scale w - 150) : Nat) / (2 ^ (150 - f32Scale w) : Nat) := by
  have hsig : f32Significand w = magnitude w - gridShift (magnitude w) * 2 ^ 23 := by
    rw [f32Significand, f32Exponent_eq_div, f32Fraction_eq_mod, gridShift]
    split_ifs <;> omega
  have hscale : f32Scale w = gridShift (magnitude w) + 1 := by
    rw [f32Scale, f32Exponent_eq_div, gridShift]
    omega
  have hup : ((gridShift (magnitude w) : Int) - 149).toNat = f32Scale w - 150 := by omega
  have hdown : (-((gridShift (magnitude w) : Int) - 149)).toNat = 150 - f32Scale w := by omega
  rw [gridValue, two_zpow_eq_div, hup, hdown, ← hsig]
  push_cast
  ring

theorem f32Significand_eq_zero_iff (w : Word) : f32Significand w = 0 ↔ magnitude w = 0 := by
  rw [f32Significand, f32Exponent_eq_div, f32Fraction_eq_mod]
  split_ifs <;> omega

/-- A finite pattern but minus zero has the value of its magnitude, with its sign. -/
theorem f32_eq_fin {w : Word} (hfin : magnitude w < infMagnitude) (hz : ¬ (f32Negative w = true ∧ magnitude w = 0)) :
    f32 w = .fin (f32Sign w * gridValue (magnitude w)) := by
  have hexp : f32Exponent w ≠ 255 := mt (f32Exponent_eq_255_iff w).1 hfin.not_ge
  have hsig : (((if f32Negative w then -(f32Significand w) else f32Significand w : Int)) : Rat) =
      f32Sign w * f32Significand w := by
    rw [f32Sign]
    split_ifs <;> simp
  rw [← f32Significand_eq_zero_iff] at hz
  rw [f32, if_neg hexp, if_neg hz, gridValue_magnitude]
  dsimp only
  by_cases h150 : 150 ≤ f32Scale w
  · rw [if_pos h150, Nat.sub_eq_zero_of_le h150, Rat.mkRat_eq_div, Int.cast_mul, hsig]
    push_cast
    ring_nf
  · rw [if_neg h150, Nat.sub_eq_zero_of_le (not_le.1 h150).le, Rat.mkRat_eq_div, hsig]
    push_cast
    ring_nf

/-- The value of a pattern by its magnitude and sign (00_scope.md R12). -/
theorem f32_eq_ite (w : Word) : f32 w =
    if infMagnitude < magnitude w then .nan
    else if magnitude w = infMagnitude then (if f32Negative w then .negInf else .posInf)
    else if f32Negative w = true ∧ magnitude w = 0 then .negZero
    else .fin (f32Sign w * gridValue (magnitude w)) := by
  rcases lt_or_ge (magnitude w) infMagnitude with hfin | hinf
  · rw [if_neg hfin.not_gt, if_neg hfin.ne]
    split_ifs with hz
    · rw [← f32Significand_eq_zero_iff] at hz
      rw [f32, if_neg (mt (f32Exponent_eq_255_iff w).1 hfin.not_ge), if_pos hz]
    · exact f32_eq_fin hfin hz
  · rw [f32, if_pos ((f32Exponent_eq_255_iff w).2 hinf)]
    simp only [f32Fraction_ne_zero_iff hinf]
    rcases hinf.lt_or_eq with hlt | heq
    · rw [if_pos hlt, if_pos hlt]
    · rw [if_neg heq.not_lt, if_neg heq.not_lt, if_pos heq.symm]

/-- Settles O29: the sign, exponent and fraction are the parts of the pattern, and each row of the table one case of
`f32_eq_ite`. -/
theorem binaryPatternHasItsValue : Obligations.BinaryPatternHasItsValue := by
  intro w sign e f hsign he hf
  have hlt := w.isLt
  have hm : magnitude w = e * 2 ^ 23 + f := by rw [magnitude]; omega
  have hneg : f32Negative w = true ↔ sign ≠ 0 := by rw [f32Negative_iff]; omega
  have hfactor : f32Sign w = (-1) ^ sign := by
    have hsign2 : sign = 0 ∨ sign = 1 := by omega
    rcases hsign2 with h | h <;> simp [f32Sign, hneg, h]
  rw [f32_eq_ite, hm, infMagnitude, hfactor]
  simp only [hneg]
  refine ⟨fun he255 hf0 => ?_, fun he255 hf0 => ?_, fun he0 hf0 => ?_, fun he0 hf0 => ?_, fun he0 he255 => ?_⟩
  · rw [if_pos (by omega)]
  · rw [if_neg (by omega), if_pos (by omega), ite_not]
  · rw [if_neg (by omega), if_neg (by omega)]
    subst he0 hf0
    by_cases h : sign = 0 <;> simp [h]
  · rw [if_neg (by omega), if_neg (by omega), if_neg (by omega), he0, gridValue_shift_add (by omega) (.inl rfl)]
    norm_num [mul_assoc]
  · have hsplit : e * 2 ^ 23 + f = (e - 1) * 2 ^ 23 + (2 ^ 23 + f) := by omega
    have hexp : (2 : Rat) ^ ((e : Int) - 127) = 2 ^ 23 * 2 ^ (((e - 1 : Nat) : Int) - 149) := by
      rw [← zpow_natCast, ← zpow_add₀ (by norm_num)]
      congr 1
      omega
    rw [if_neg (by omega), if_neg (by omega), if_neg (by omega), hsplit, gridValue_shift_add (by omega) (by omega),
      hexp]
    push_cast
    ring_nf

end Sys2Proof.Machine
end

section
/-!
PROOFS. 42_payload_build.md R112: the place of a rational on the binary32 grid, and the two magnitudes beside it.
-/

namespace Sys2Proof.Machine

/-! ### The binary logarithm -/

/-- The comparison of the model's logarithm, in natural numbers, is that with a power of two. -/
theorem two_zpow_le_div_iff {n d : Nat} (hd : 0 < d) (k : Int) :
    (2 : Rat) ^ k ≤ n / d ↔ d * 2 ^ k.toNat ≤ n * 2 ^ (-k).toNat := by
  have hd' : (0 : Rat) < d := by exact_mod_cast hd
  rw [two_zpow_eq_div, div_le_div_iff₀ (by positivity) hd', mul_comm]
  exact_mod_cast Iff.rfl

/-- The quotient of two numbers lies within a factor of two of the power that their lengths give. -/
theorem div_between_zpow {n d : Nat} (hn : 0 < n) (hd : 0 < d) :
    (2 : Rat) ^ ((n.log2 : Int) - d.log2 - 1) < n / d ∧ (n : Rat) / d < 2 ^ ((n.log2 : Int) - d.log2 + 1) := by
  have hd' : (0 : Rat) < d := by exact_mod_cast hd
  have hn1 : (2 : Rat) ^ n.log2 ≤ n := by exact_mod_cast Nat.log2_self_le hn.ne'
  have hn2 : (n : Rat) < 2 ^ (n.log2 + 1) := by exact_mod_cast Nat.lt_log2_self
  have hd1 : (2 : Rat) ^ d.log2 ≤ d := by exact_mod_cast Nat.log2_self_le hd.ne'
  have hd2 : (d : Rat) < 2 ^ (d.log2 + 1) := by exact_mod_cast Nat.lt_log2_self
  have hlow : (2 : Rat) ^ ((n.log2 : Int) - d.log2 - 1) = 2 ^ n.log2 / 2 ^ (d.log2 + 1) := by
    rw [← zpow_natCast, ← zpow_natCast, ← zpow_sub₀ (by norm_num)]; congr 1; push_cast; ring
  have hhigh : (2 : Rat) ^ ((n.log2 : Int) - d.log2 + 1) = 2 ^ (n.log2 + 1) / 2 ^ d.log2 := by
    rw [← zpow_natCast, ← zpow_natCast, ← zpow_sub₀ (by norm_num)]; congr 1; push_cast; ring
  rw [hlow, hhigh]
  exact ⟨div_lt_div₀' hn1 hd2 (by positivity) (by positivity), div_lt_div₀ hn2 hd1 (by positivity) (by positivity)⟩

/-- The model's logarithm is the exponent of the binade. -/
theorem floorLog2_spec {n d : Nat} (hn : 0 < n) (hd : 0 < d) :
    (2 : Rat) ^ floorLog2 n d ≤ n / d ∧ (n : Rat) / d < 2 ^ (floorLog2 n d + 1) := by
  obtain ⟨hlow, hhigh⟩ := div_between_zpow hn hd
  unfold floorLog2
  dsimp only
  split_ifs with h <;> rw [← two_zpow_le_div_iff hd] at h
  · exact ⟨h, hhigh⟩
  · rw [sub_add_cancel]
    exact ⟨hlow.le, not_le.1 h⟩

/-! ### The place on the grid -/

/-- A grid place stands for `x`: the lower magnitude, and the part of the way to the next. -/
structure GridPoint.Places (g : GridPoint) (x : Rat) : Prop where
  rest_lt : g.rest < g.unit
  pattern_lt : g.pattern < infMagnitude
  value : x = gridValue g.pattern + g.rest / g.unit * (gridValue (g.pattern + 1) - gridValue g.pattern)

/-- Above the range the place is a constant. -/
theorem gridPoint_of_ge {n d : Nat} (hn : 0 < n) (hd : 0 < d) (hx : 2 ^ 128 ≤ (n : Rat) / d) :
    gridPoint n d = { pattern := infMagnitude - 1, rest := 2, unit := 3 } := by
  have hlog : 128 < floorLog2 n d + 1 :=
    (zpow_lt_zpow_iff_right₀ (a := (2 : Rat)) (by norm_num)).1 (lt_of_le_of_lt (by exact_mod_cast hx)
      (floorLog2_spec hn hd).2)
  unfold gridPoint
  dsimp only
  rw [if_pos (by omega)]
  rfl

/-- Scaling numerator and denominator divides the quotient by a power of two. -/
theorem scaled_div (n d : Nat) (t : Int) :
    ((n * 2 ^ (-t).toNat : Nat) : Rat) / (d * 2 ^ t.toNat : Nat) = n / d / 2 ^ t := by
  rw [two_zpow_eq_div]
  push_cast
  field_simp

/-- The quotient in the unit of the binade is an integer below 2^24, and from the second binade on at least 2^23; its
remainder is the rest of the place. -/
theorem places_of_scaled {k : Int} {x : Rat} {a b : Nat} (hb : 0 < b) (hk : -126 ≤ k ∧ k ≤ 127)
    (hab : (a : Rat) / b = x / 2 ^ (k - 23)) (hhigh : x < 2 ^ (k + 1)) (hlow : k = -126 ∨ 2 ^ k ≤ x) :
    GridPoint.Places { pattern := (k + 126).toNat * 2 ^ 23 + a / b, rest := a % b, unit := b } x := by
  have hb' : (0 : Rat) < b := by exact_mod_cast hb
  have hunit : (0 : Rat) < 2 ^ (k - 23) := zpow_pos (by norm_num) _
  have hexp : (((k + 126).toNat : Nat) : Int) - 149 = k - 23 := by omega
  have hbelow : a / b < 2 ^ 24 := by
    have hq : (a : Rat) / b < 2 ^ 24 := by
      rwa [hab, div_lt_iff₀ hunit, ← zpow_natCast, ← zpow_add₀ (by norm_num),
        show ((24 : Nat) : Int) + (k - 23) = k + 1 by omega]
    rw [div_lt_iff₀ hb'] at hq
    exact Nat.div_lt_of_lt_mul (by rw [Nat.mul_comm]; exact_mod_cast hq)
  have habove : (k + 126).toNat = 0 ∨ 2 ^ 23 ≤ a / b := by
    refine hlow.imp (fun h => by omega) fun h => ?_
    have hq : 2 ^ 23 ≤ (a : Rat) / b := by
      rwa [hab, le_div_iff₀ hunit, ← zpow_natCast, ← zpow_add₀ (by norm_num),
        show ((23 : Nat) : Int) + (k - 23) = k by omega]
    rw [le_div_iff₀ hb'] at hq
    exact (Nat.le_div_iff_mul_le hb).2 (by exact_mod_cast hq)
  refine ⟨Nat.mod_lt _ hb, ?_, ?_⟩
  · dsimp only
    rw [infMagnitude]
    omega
  · have hx : x = a / b * 2 ^ (k - 23) := by rw [hab, div_mul_cancel₀ _ hunit.ne']
    have hsplit : (a : Rat) = b * (a / b : Nat) + (a % b : Nat) := by exact_mod_cast (Nat.div_add_mod a b).symm
    dsimp only
    rw [gridValue_shift_add hbelow.le habove, Nat.add_assoc, gridValue_shift_add hbelow (by omega), hexp, hx]
    nth_rw 1 [hsplit]
    push_cast
    field_simp
    ring

/-- Within the range the place stands for the rational. -/
theorem gridPoint_places {n d : Nat} (hn : 0 < n) (hd : 0 < d) (hx : (n : Rat) / d < 2 ^ 128) :
    (gridPoint n d).Places (n / d) := by
  obtain ⟨hlow, hhigh⟩ := floorLog2_spec hn hd
  have hlog : floorLog2 n d < 128 :=
    (zpow_lt_zpow_iff_right₀ (a := (2 : Rat)) (by norm_num)).1 (hlow.trans_lt (by exact_mod_cast hx))
  unfold gridPoint
  dsimp only
  rw [if_neg (by omega)]
  refine places_of_scaled (by positivity) (by omega) (scaled_div n d _) ?_ ?_
  · exact hhigh.trans_le (zpow_le_zpow_right₀ (by norm_num) (by omega))
  · rcases le_total (floorLog2 n d) (-126) with h | h
    · exact .inl (max_eq_right h)
    · rw [max_eq_left h]
      exact .inr hlow

/-! ### The choice -/

/-- The magnitude `c` is chosen for `x` by a rule: one of two that follow each other and enclose `x`, the first where
it is `x` itself; under the default rule the nearer, a tie going to the even one (42_payload_build.md R112 item 3). -/
structure NeighbourOf (rule : FloatRule) (x : Rat) (p c : Nat) : Prop where
  lt_inf : p < infMagnitude
  lower : gridValue p ≤ x
  upper : x < gridValue (p + 1) ∨ p + 1 = infMagnitude
  choice : c = p ∨ (c = p + 1 ∧ gridValue p < x)
  down : rule = .nearestEven → c = p → 2 * x ≤ gridValue p + gridValue (p + 1) ∧
    (2 * x = gridValue p + gridValue (p + 1) → p % 2 = 0)
  up : rule = .nearestEven → c = p + 1 → gridValue p + gridValue (p + 1) ≤ 2 * x ∧
    (2 * x = gridValue p + gridValue (p + 1) → p % 2 = 1)

/-- The choice at a grid place is the place's magnitude or the next. -/
theorem chooseNeighbour_cases (rule : FloatRule) (q : Rat) (g : GridPoint) :
    chooseNeighbour rule q g = g.pattern ∨ (chooseNeighbour rule q g = g.pattern + 1 ∧ 0 < g.rest) := by
  unfold chooseNeighbour
  dsimp only
  split_ifs with h0 <;> simp [Nat.pos_iff_ne_zero, h0]

/-- Under the default rule the next magnitude is chosen beyond the middle, and at it from an odd one. -/
theorem chooseNeighbour_nearestEven (q : Rat) {g : GridPoint} (hu : 0 < g.unit) :
    chooseNeighbour .nearestEven q g = g.pattern + 1 ↔
      g.unit < 2 * g.rest ∨ (2 * g.rest = g.unit ∧ g.pattern % 2 = 1) := by
  unfold chooseNeighbour
  dsimp only
  split_ifs with h0 h
  · simp [h0]; omega
  · simpa using h
  · simpa using h

/-- The place of `x` as distances, in parts of the step to the next magnitude: from below, to above, and from the
middle. -/
theorem GridPoint.Places.distances {g : GridPoint} {x : Rat} (hg : g.Places x) : ∃ part : Rat, 0 < part ∧
    x - gridValue g.pattern = g.rest * part ∧ gridValue (g.pattern + 1) - x = (g.unit - g.rest) * part ∧
    2 * x - (gridValue g.pattern + gridValue (g.pattern + 1)) = (2 * g.rest - g.unit) * part := by
  have hu : (0 : Rat) < g.unit := by exact_mod_cast (Nat.zero_le _).trans_lt hg.rest_lt
  have hstep : 0 < gridValue (g.pattern + 1) - gridValue g.pattern :=
    sub_pos.2 (gridValue_strictMono (Nat.lt_succ_self _))
  have hx := hg.value
  refine ⟨(gridValue (g.pattern + 1) - gridValue g.pattern) / g.unit, div_pos hstep hu, ?_, ?_, ?_⟩
  all_goals
    field_simp at hx ⊢
    linarith

/-- At the place of `x` the choice is a neighbour of `x`. -/
theorem neighbourOf_of_places {g : GridPoint} {x : Rat} (hg : g.Places x) (rule : FloatRule) (q : Rat) :
    NeighbourOf rule x g.pattern (chooseNeighbour rule q g) := by
  obtain ⟨part, hpart, hbelow, habove, hmid⟩ := hg.distances
  have hrest : (g.rest : Rat) < g.unit := by exact_mod_cast hg.rest_lt
  have hu : 0 < g.unit := (Nat.zero_le _).trans_lt hg.rest_lt
  have hnear := chooseNeighbour_nearestEven q hu
  have htie : 2 * x = gridValue g.pattern + gridValue (g.pattern + 1) → 2 * g.rest = g.unit := fun h => by
    rw [h, sub_self, eq_comm, mul_eq_zero_iff_right hpart.ne', sub_eq_zero] at hmid
    exact_mod_cast hmid
  have hbeyond (hr : 0 < g.rest) : gridValue g.pattern < x := by
    have : 0 < (g.rest : Rat) * part := mul_pos (by exact_mod_cast hr) hpart
    linarith
  refine ⟨hg.pattern_lt, ?_, .inl ?_, (chooseNeighbour_cases rule q g).imp_right (And.imp_right hbeyond),
    fun hrule hc => ?_, fun hrule hc => ?_⟩
  · have : 0 ≤ (g.rest : Rat) * part := by positivity
    linarith
  · have := mul_pos (sub_pos.2 hrest) hpart
    linarith
  · subst hrule
    have hno := mt hnear.2 (by omega)
    have hle : (2 * g.rest : Rat) ≤ g.unit := by exact_mod_cast (by omega : 2 * g.rest ≤ g.unit)
    have := mul_nonpos_of_nonpos_of_nonneg (sub_nonpos.2 hle) hpart.le
    exact ⟨by linarith, fun h => by have := htie h; omega⟩
  · subst hrule
    have hyes := hnear.1 hc
    have hle : (g.unit : Rat) ≤ 2 * g.rest := by exact_mod_cast (by omega : g.unit ≤ 2 * g.rest)
    have := mul_nonneg (sub_nonneg.2 hle) hpart.le
    exact ⟨by linarith, fun h => by have := htie h; omega⟩

/-- Above the range the largest finite value and the infinity are the neighbours, and the default rule takes the
infinity. -/
theorem neighbourOf_above {x : Rat} (hx : 2 ^ 128 ≤ x) (rule : FloatRule) (q : Rat) :
    NeighbourOf rule x (infMagnitude - 1)
      (chooseNeighbour rule q { pattern := infMagnitude - 1, rest := 2, unit := 3 }) := by
  have hnear := chooseNeighbour_nearestEven q (g := { pattern := infMagnitude - 1, rest := 2, unit := 3 }) (by decide)
  have hmid : gridValue (infMagnitude - 1) + gridValue (infMagnitude - 1 + 1) < 2 * x := by
    rw [show infMagnitude - 1 + 1 = infMagnitude from rfl, gridValue_maxFinite, gridValue_infMagnitude]
    linarith
  have hlow : gridValue (infMagnitude - 1) < x := by
    rw [gridValue_maxFinite]
    linarith
  refine ⟨by decide, hlow.le, .inr rfl, (chooseNeighbour_cases rule q _).imp_right fun h => ⟨h.1, hlow⟩,
    fun hrule hc => ?_, fun _ _ => ⟨hmid.le, fun h => absurd h hmid.ne'⟩⟩
  subst hrule
  rw [hnear.2 (.inl (by decide))] at hc
  exact absurd hc (by decide)

/-- The magnitude of a rational is a neighbour of its absolute value. -/
theorem exists_neighbourOf (rule : FloatRule) (q : Rat) : ∃ p, NeighbourOf rule |q| p (f32Magnitude rule q) := by
  unfold f32Magnitude
  split_ifs with h0
  · obtain rfl : q = 0 := Rat.num_eq_zero.1 h0
    have hpos : (0 : Rat) < gridValue 1 := gridValue_zero ▸ gridValue_strictMono Nat.zero_lt_one
    refine ⟨0, by decide, by simp, .inl (by simpa using hpos), .inl rfl, fun _ _ => ⟨by simpa using hpos.le, ?_⟩, ?_⟩
    · exact fun _ => rfl
    · exact fun _ h => absurd h (by decide)
  · have hn : 0 < q.num.natAbs := Int.natAbs_pos.2 h0
    have hq : |q| = (q.num.natAbs : Rat) / q.den := by
      conv_lhs => rw [← Rat.num_div_den q]
      rw [abs_div, Nat.abs_cast, ← Int.cast_abs, Int.abs_eq_natAbs]
      rfl
    rcases lt_or_ge |q| (2 ^ 128) with hlt | hge
    · exact ⟨_, hq ▸ neighbourOf_of_places (gridPoint_places hn q.den_pos (hq ▸ hlt)) rule q⟩
    · rw [gridPoint_of_ge hn q.den_pos (hq ▸ hge)]
      exact ⟨_, neighbourOf_above hge rule q⟩

end Sys2Proof.Machine
end

section
/-!
PROOFS. 42_payload_build.md R112: `F32_OF`. Its result has the sign of the rational and a neighbour of its absolute
value for magnitude.
-/

namespace Sys2Proof.Machine

/-! ### Neighbours in the order of magnitudes -/

section
variable {rule : FloatRule} {x : Rat} {p c m : Nat}

/-- The lower neighbour is the last finite magnitude whose value is not above `x`. -/
theorem NeighbourOf.gridValue_le_iff (h : NeighbourOf rule x p c) (hm : m < infMagnitude) :
    gridValue m ≤ x ↔ m ≤ p := by
  refine ⟨fun hle => ?_, fun hle => (gridValue_strictMono.monotone hle).trans h.lower⟩
  by_contra hlt
  have hnext : gridValue (p + 1) ≤ gridValue m := gridValue_strictMono.monotone (by omega)
  rcases h.upper with hup | hinf
  · linarith
  · omega

theorem NeighbourOf.le_infMagnitude (h : NeighbourOf rule x p c) : c ≤ infMagnitude := by
  have := h.lt_inf
  rcases h.choice with rfl | ⟨rfl, -⟩ <;> omega

/-- What is chosen for the value of a finite magnitude is the magnitude. -/
theorem NeighbourOf.eq_of_gridValue (h : NeighbourOf rule (gridValue m) p c) (hm : m < infMagnitude) : c = m := by
  have hmp : m ≤ p := (h.gridValue_le_iff hm).1 le_rfl
  have hpm : p ≤ m := gridValue_strictMono.le_iff_le.1 h.lower
  rcases h.choice with rfl | ⟨-, hlt⟩
  · exact le_antisymm hpm hmp
  · have := gridValue_strictMono.lt_iff_lt.1 hlt
    omega

/-- No value of a finite magnitude lies strictly between `x` and a finite choice. -/
theorem NeighbourOf.not_between (h : NeighbourOf rule x p c) (hc : c < infMagnitude) (hm : m < infMagnitude) :
    ¬ (min x (gridValue c) < gridValue m ∧ gridValue m < max x (gridValue c)) := by
  rintro ⟨hlow, hhigh⟩
  rcases h.choice with rfl | ⟨rfl, hlt⟩
  · rw [min_eq_right h.lower, gridValue_strictMono.lt_iff_lt] at hlow
    rw [max_eq_left h.lower] at hhigh
    exact absurd ((h.gridValue_le_iff hm).1 hhigh.le) (by omega)
  · have hup : x < gridValue (p + 1) := h.upper.resolve_right hc.ne
    rw [min_eq_left hup.le] at hlow
    rw [max_eq_right hup.le, gridValue_strictMono.lt_iff_lt] at hhigh
    exact absurd ((h.gridValue_le_iff hm).2 (by omega)) hlow.not_ge

/-- The infinity is chosen for what lies beyond every finite value. -/
theorem NeighbourOf.gridValue_lt_of_inf (h : NeighbourOf rule x p infMagnitude) (hm : m < infMagnitude) :
    gridValue m < x := by
  rcases h.choice with hp | ⟨hp, hlt⟩
  · exact absurd hp h.lt_inf.ne'
  · exact (gridValue_strictMono.monotone (by omega)).trans_lt hlt

/-- Under the default rule no finite magnitude is nearer than the choice, and if another is as near, the choice is
even. -/
theorem NeighbourOf.nearest (h : NeighbourOf .nearestEven x p c) (hc : c < infMagnitude) (hm : m < infMagnitude) :
    |x - gridValue c| ≤ |x - gridValue m| ∧
      (|x - gridValue c| = |x - gridValue m| → m ≠ c → c % 2 = 0) := by
  have hle := h.gridValue_le_iff hm
  have hinj {a b : Nat} (h : gridValue a = gridValue b) : a = b := gridValue_strictMono.injective h
  rcases h.choice with rfl | ⟨rfl, hlt⟩
  · obtain ⟨hdown, htie⟩ := h.down rfl rfl
    rw [abs_of_nonneg (sub_nonneg.2 h.lower)]
    rcases le_or_gt m c with hmp | hpm
    · have hmono := gridValue_strictMono.monotone hmp
      rw [abs_of_nonneg (sub_nonneg.2 (hle.2 hmp))]
      exact ⟨by linarith, fun heq hne => absurd (hinj (by linarith)) hne⟩
    · have hmono : gridValue (c + 1) ≤ gridValue m := gridValue_strictMono.monotone hpm
      have hx : x < gridValue m := not_le.1 (mt hle.1 hpm.not_ge)
      rw [abs_of_neg (sub_neg.2 hx)]
      exact ⟨by linarith, fun heq _ => htie (by linarith)⟩
  · obtain ⟨hup, htie⟩ := h.up rfl rfl
    have hx : x < gridValue (p + 1) := h.upper.resolve_right hc.ne
    rw [abs_of_neg (sub_neg.2 hx)]
    rcases le_or_gt m p with hmp | hpm
    · have hmono := gridValue_strictMono.monotone hmp
      rw [abs_of_nonneg (sub_nonneg.2 (hle.2 hmp))]
      refine ⟨by linarith, fun heq _ => ?_⟩
      have := htie (by linarith)
      omega
    · have hmono : gridValue (p + 1) ≤ gridValue m := gridValue_strictMono.monotone hpm
      rw [abs_of_neg (sub_neg.2 (hx.trans_le hmono))]
      exact ⟨by linarith, fun heq hne => absurd (hinj (by linarith)) hne⟩

/-- Under the default rule the infinity begins half a step above the largest finite value. -/
theorem NeighbourOf.eq_inf_iff (h : NeighbourOf .nearestEven x p c) :
    c = infMagnitude ↔ 2 ^ 128 - 2 ^ 103 ≤ x := by
  have hmax : gridValue (infMagnitude - 1) = 2 ^ 128 - 2 ^ 104 := gridValue_maxFinite
  have hinf := gridValue_infMagnitude
  have hp := h.lt_inf
  constructor
  · rintro rfl
    have hpinf : infMagnitude = p + 1 := by
      rcases h.choice with hc | ⟨hc, -⟩
      · exact absurd hc hp.ne'
      · exact hc
    obtain ⟨hup, -⟩ := h.up rfl hpinf
    rw [← hpinf, show p = infMagnitude - 1 by omega, hmax, hinf] at hup
    linarith
  · intro hx
    have hlast : infMagnitude - 1 ≤ p := (h.gridValue_le_iff (by decide)).1 (by rw [hmax]; linarith)
    obtain rfl : p = infMagnitude - 1 := by omega
    rcases h.choice with hc | ⟨hc, -⟩
    · obtain ⟨hdown, htie⟩ := h.down rfl hc
      rw [show infMagnitude - 1 + 1 = infMagnitude from rfl, hmax, hinf] at hdown htie
      exact absurd (htie (by linarith)) (by decide)
    · exact hc

end

/-! ### Sign and magnitude of a pattern -/

theorem f32Sign_eq_one_or (w : Word) : f32Sign w = 1 ∨ f32Sign w = -1 := by
  unfold f32Sign
  split_ifs <;> simp

/-- A pattern with a rational value, minus zero counting as 0, is finite, and has the value of its magnitude with its
sign. -/
theorem value_of_finite {w : Word} {y : Rat} (h : f32 w = .fin y ∨ (f32 w = .negZero ∧ y = 0)) :
    magnitude w < infMagnitude ∧ y = f32Sign w * gridValue (magnitude w) := by
  rw [f32_eq_ite] at h
  split_ifs at h with hnan hinf hneg hz <;> simp at h
  · exact ⟨by omega, by simp [h, hz.2]⟩
  · exact ⟨by omega, h.symm⟩

theorem abs_f32Sign_mul (w : Word) (m : Nat) : |f32Sign w * gridValue m| = gridValue m := by
  rcases f32Sign_eq_one_or w with h | h <;> simp [h, abs_of_nonneg (gridValue_nonneg m)]

/-- A word is its sign and its magnitude. -/
theorem toNat_eq_sign_add (w : Word) : w.toNat = (if f32Negative w then 2 ^ 31 else 0) + magnitude w := by
  have hneg := f32Negative_iff w
  have := w.isLt
  rw [magnitude]
  split_ifs with h
  · have := hneg.1 h
    omega
  · have := mt hneg.2 h
    omega

theorem eq_of_sign_magnitude {v w : Word} (hs : f32Negative v = f32Negative w) (hm : magnitude v = magnitude w) :
    v = w := by
  apply BitVec.eq_of_toNat_eq
  rw [toNat_eq_sign_add v, toNat_eq_sign_add w, hs, hm]

/-! ### The result of `F32_OF` -/

section
variable (P : Params) (q : Rat)

theorem f32Magnitude_le (rule : FloatRule) : f32Magnitude rule q ≤ infMagnitude := by
  obtain ⟨p, hp⟩ := exists_neighbourOf rule q
  exact hp.le_infMagnitude

theorem toNat_f32Of_fin :
    (f32Of P (.fin q)).toNat = (if q < 0 then 2 ^ 31 else 0) + f32Magnitude P.floatRule q := by
  have hle := f32Magnitude_le q P.floatRule
  unfold infMagnitude at hle
  rw [f32Of, BitVec.toNat_ofNat]
  simp only [Rat.num_neg]
  split_ifs <;> omega

@[simp] theorem magnitude_f32Of_fin : magnitude (f32Of P (.fin q)) = f32Magnitude P.floatRule q := by
  have hle := f32Magnitude_le q P.floatRule
  unfold infMagnitude at hle
  rw [magnitude, toNat_f32Of_fin]
  split_ifs <;> omega

@[simp] theorem f32Negative_f32Of_fin : f32Negative (f32Of P (.fin q)) = decide (q < 0) := by
  have hle := f32Magnitude_le q P.floatRule
  unfold infMagnitude at hle
  rw [Bool.eq_iff_iff, f32Negative_iff, toNat_f32Of_fin, decide_eq_true_iff]
  split_ifs with h
  · simp [h]
  · simp only [h, iff_false]
    omega

/-- The sign of the result is that of the rational. -/
theorem f32Sign_f32Of_mul_abs : f32Sign (f32Of P (.fin q)) * |q| = q := by
  rw [f32Sign, f32Negative_f32Of_fin]
  by_cases h : q < 0
  · simp [h, abs_of_neg h]
  · simp [h, abs_of_nonneg (not_lt.1 h)]

theorem f32_f32Of_fin_ne_nan : f32 (f32Of P (.fin q)) ≠ .nan := by
  rw [f32_eq_ite, magnitude_f32Of_fin, if_neg (f32Magnitude_le q _).not_gt]
  split_ifs <;> simp

theorem f32_f32Of_fin_eq_posInf_iff :
    f32 (f32Of P (.fin q)) = .posInf ↔ f32Magnitude P.floatRule q = infMagnitude ∧ 0 ≤ q := by
  rw [f32_eq_ite, magnitude_f32Of_fin, if_neg (f32Magnitude_le q _).not_gt]
  split_ifs with hinf hneg <;> simp_all

theorem f32_f32Of_fin_eq_negInf_iff :
    f32 (f32Of P (.fin q)) = .negInf ↔ f32Magnitude P.floatRule q = infMagnitude ∧ q < 0 := by
  rw [f32_eq_ite, magnitude_f32Of_fin, if_neg (f32Magnitude_le q _).not_gt]
  split_ifs with hinf hneg <;> simp_all

end

/-! ### Exact values -/

/-- A value that binary32 holds is built as its own pattern, under either rule (42_payload_build.md R112 items 1
and 2). -/
theorem f32Of_f32 (P : Params) {w : Word} (h : f32 w ≠ .nan) : f32Of P (f32 w) = w := by
  have hw := f32_eq_ite w
  split_ifs at hw with hnan hinf hneg hz
  · exact absurd hw h
  · rw [hw]
    exact eq_of_sign_magnitude ((by decide : f32Negative 0xFF800000 = true).trans hneg.symm)
      ((by decide : magnitude 0xFF800000 = infMagnitude).trans hinf.symm)
  · rw [hw]
    exact eq_of_sign_magnitude
      ((by decide : f32Negative 0x7F800000 = false).trans (Bool.eq_false_of_not_eq_true hneg).symm)
      ((by decide : magnitude 0x7F800000 = infMagnitude).trans hinf.symm)
  · rw [hw]
    exact eq_of_sign_magnitude ((by decide : f32Negative 0x80000000 = true).trans hz.1.symm)
      ((by decide : magnitude 0x80000000 = 0).trans hz.2.symm)
  · rw [hw]
    have hm : magnitude w < infMagnitude := by omega
    obtain ⟨p, hp⟩ := exists_neighbourOf P.floatRule (f32Sign w * gridValue (magnitude w))
    have hc := hp
    rw [abs_f32Sign_mul] at hc
    refine eq_of_sign_magnitude ?_ ((magnitude_f32Of_fin P _).trans (hc.eq_of_gridValue hm))
    rw [f32Negative_f32Of_fin, f32Sign]
    cases hn : f32Negative w with
    | true =>
      have hpos : 0 < gridValue (magnitude w) :=
        gridValue_zero ▸ gridValue_strictMono (Nat.pos_of_ne_zero fun h0 => hz ⟨hn, h0⟩)
      simpa using hpos
    | false => simpa using gridValue_nonneg (magnitude w)

/-- Settles O30: the pattern itself is the wire word, byte by byte. -/
theorem exactFloatIsBuiltAsItsPattern : Obligations.ExactFloatIsBuiltAsItsPattern := by
  intro s a w h
  have hword : wireWordOf s.params (f32 w) true = w := f32Of_f32 s.params h
  rw [exec_buildPayload_eq_respond, hword, payloadFields_eq_bytes]
  rfl

/-- A NaN pattern has the value NaN. -/
theorem f32_of_isNanPattern {w : Word} (h : isNanPattern w = true) : f32 w = .nan := by
  obtain ⟨hexp, hfrac⟩ := Bool.and_eq_true_iff.1 h
  rw [f32, if_pos (beq_iff_eq.1 hexp), if_pos (bne_iff_ne.1 hfrac)]

/-- Settles O32: the word is the parameter, which an admissible block has as a NaN pattern. -/
theorem nanIsBuiltAsANanPattern : Obligations.NanIsBuiltAsANanPattern := by
  intro s a hinv
  obtain ⟨-, -, hnan, -⟩ := hinv.params
  have hword := memRead32_payloadFields 0 0 a s.params.floatNan
  exact ⟨_, exec_buildPayload_eq_respond a .nan true s, hword, (congrArg f32 hword).trans (f32_of_isNanPattern hnan)⟩

/-! ### Neighbours -/

/-- What lies between `q` and a finite value of `q`'s sign has that sign. -/
theorem abs_between {w : Word} {a b x : Rat} (ha : 0 ≤ a) (hb : 0 ≤ b)
    (h : min (f32Sign w * a) (f32Sign w * b) < x ∧ x < max (f32Sign w * a) (f32Sign w * b)) :
    min a b < |x| ∧ |x| < max a b := by
  obtain ⟨hlow, hhigh⟩ := h
  have hmin : 0 ≤ min a b := le_min ha hb
  rcases f32Sign_eq_one_or w with hs | hs
  · rw [hs, one_mul, one_mul] at hlow hhigh
    rw [abs_of_pos (hmin.trans_lt hlow)]
    exact ⟨hlow, hhigh⟩
  · rw [hs, neg_one_mul, neg_one_mul, min_neg_neg] at hlow
    rw [hs, neg_one_mul, neg_one_mul, max_neg_neg] at hhigh
    rw [abs_of_neg (by linarith)]
    exact ⟨by linarith, by linarith⟩

/-- Every finite value is that of a magnitude but for its sign. -/
theorem abs_of_f32_eq_fin {v : Word} {x : Rat} (h : f32 v = .fin x) :
    magnitude v < infMagnitude ∧ |x| = gridValue (magnitude v) := by
  obtain ⟨hm, hx⟩ := value_of_finite (.inl h)
  exact ⟨hm, by rw [hx, abs_f32Sign_mul]⟩

/-- Settles O31: the choice is a neighbour of the absolute value, and the signs agree. -/
theorem floatIsBuiltAsANeighbour : Obligations.FloatIsBuiltAsANeighbour := by
  intro P q
  obtain ⟨p, hp⟩ := exists_neighbourOf P.floatRule q
  have hbeyond (hinf : f32Magnitude P.floatRule q = infMagnitude) {v : Word} {x : Rat} (hv : f32 v = .fin x) :
      |x| < |q| := by
    obtain ⟨hm, hx⟩ := abs_of_f32_eq_fin hv
    rw [hinf] at hp
    exact hx ▸ hp.gridValue_lt_of_inf hm
  refine ⟨f32_f32Of_fin_ne_nan P q, fun y hy v x hv hbetween => ?_, fun hinf v x hv => ?_, fun hinf v x hv => ?_⟩
  · obtain ⟨hc, hyc⟩ := value_of_finite hy
    obtain ⟨hm, hx⟩ := abs_of_f32_eq_fin hv
    rw [magnitude_f32Of_fin] at hc hyc
    have h := abs_between (w := f32Of P (.fin q)) (x := x) (abs_nonneg q) (gridValue_nonneg _)
      (by rwa [f32Sign_f32Of_mul_abs, ← hyc])
    exact hp.not_between hc hm (hx ▸ h)
  · obtain ⟨hmag, hq⟩ := (f32_f32Of_fin_eq_posInf_iff P q).1 hinf
    exact (le_abs_self x).trans_lt (abs_of_nonneg hq ▸ hbeyond hmag hv)
  · obtain ⟨hmag, hq⟩ := (f32_f32Of_fin_eq_negInf_iff P q).1 hinf
    have := abs_of_neg hq ▸ hbeyond hmag hv
    linarith [neg_abs_le x]

/-- The distance to a value of `q`'s sign is that of the absolute values. -/
theorem abs_sub_f32Of (P : Params) (q : Rat) (m : Nat) :
    |q - f32Sign (f32Of P (.fin q)) * gridValue m| = |(|q| - gridValue m)| := by
  have hfactor : q - f32Sign (f32Of P (.fin q)) * gridValue m = f32Sign (f32Of P (.fin q)) * (|q| - gridValue m) := by
    rw [mul_sub, f32Sign_f32Of_mul_abs]
  rw [hfactor, abs_mul]
  rcases f32Sign_eq_one_or (f32Of P (.fin q)) with hs | hs <;> simp [hs]

/-- Settles O49: nearest and even for the absolute values, where the infinities begin, and the sign bit. -/
theorem defaultFloatIsTheNearestEven : Obligations.DefaultFloatIsTheNearestEven := by
  intro P q hrule
  obtain ⟨p, hp⟩ := exists_neighbourOf .nearestEven q
  have hinf := hp.eq_inf_iff
  refine ⟨fun y hy v x hv => ?_, ?_, ?_, ?_⟩
  · obtain ⟨hc, hyc⟩ := value_of_finite hy
    obtain ⟨hm, hx⟩ := abs_of_f32_eq_fin hv
    rw [magnitude_f32Of_fin, hrule] at hc hyc
    obtain ⟨hle, htie⟩ := hp.nearest hc hm
    have hqy : |q - y| = |(|q| - gridValue (f32Magnitude .nearestEven q))| := by rw [hyc, abs_sub_f32Of]
    have hqx : |(|q| - gridValue (magnitude v))| ≤ |q - x| := hx ▸ abs_abs_sub_abs_le q x
    refine ⟨by linarith, fun heq hne => ?_⟩
    have hparity : f32Magnitude .nearestEven q % 2 = 0 := by
      by_cases hmc : magnitude v = f32Magnitude .nearestEven q
      · have hxy : x = -y := by
          have habs : |x| = |y| := by rw [hx, hmc, hyc, abs_f32Sign_mul]
          exact (abs_eq_abs.1 habs).resolve_left hne
        have hqy0 : q * y = 0 := by
          have := (sq_eq_sq_iff_abs_eq_abs _ _).2 heq
          rw [hxy] at this
          linarith
        rcases mul_eq_zero.1 hqy0 with rfl | rfl
        · rfl
        · exact absurd (hxy.trans neg_zero) hne
      · exact htie (by linarith) hmc
    rw [toNat_f32Of_fin, hrule]
    split_ifs <;> omega
  · rw [f32_f32Of_fin_eq_posInf_iff, hrule, hinf]
    refine ⟨fun ⟨h, hq⟩ => abs_of_nonneg hq ▸ h, fun h => ?_⟩
    have hq : 0 ≤ q := by linarith
    exact ⟨(abs_of_nonneg hq).symm ▸ h, hq⟩
  · rw [f32_f32Of_fin_eq_negInf_iff, hrule, hinf, le_neg]
    refine ⟨fun ⟨h, hq⟩ => abs_of_neg hq ▸ h, fun h => ?_⟩
    have hq : q < 0 := by linarith
    exact ⟨(abs_of_neg hq).symm ▸ h, hq⟩
  · have := f32Magnitude_le q P.floatRule
    unfold infMagnitude at this
    rw [toNat_f32Of_fin]
    split_ifs <;> omega

end Sys2Proof.Machine
end

section
/-!
PROOFS. 43_decode_frame.md R127: rounding to hundredths. A hundred times the value of a finite magnitude is the quotient
that the model rounds.
-/

namespace Sys2Proof.Machine

/-! ### The nearest integer to a quotient -/

/-- The nearest integer is at most one half away, whichever way a tie goes. -/
theorem abs_nearest_sub_le (n : Nat) {d : Nat} (hd : 0 < d) (away : Bool) :
    |(nearest n d away : Rat) - n / d| ≤ 1 / 2 := by
  have hd' : (0 : Rat) < d := by exact_mod_cast hd
  have hn : (n : Rat) / d = (n / d : Nat) + (n % d : Nat) / d := by
    have hsplit : (n : Rat) = d * (n / d : Nat) + (n % d : Nat) := by exact_mod_cast (Nat.div_add_mod n d).symm
    field_simp
    linarith
  have hlt : ((n % d : Nat) : Rat) / d < 1 := (div_lt_one hd').2 (by exact_mod_cast Nat.mod_lt n hd)
  have hge : 0 ≤ ((n % d : Nat) : Rat) / d := by positivity
  have hhalf {p q : Nat} (h : 2 * p ≤ q) : (2 * p : Rat) ≤ q := by exact_mod_cast h
  rw [hn, abs_le]
  unfold nearest
  split_ifs with h
  · have : ((n % d : Nat) : Rat) / d ≤ 1 / 2 := by
      rw [div_le_div_iff₀ hd' (by norm_num)]
      exact_mod_cast (by omega : n % d * 2 ≤ 1 * d)
    constructor <;> linarith
  · have : 1 / 2 ≤ ((n % d : Nat) : Rat) / d := by
      rw [div_le_div_iff₀ (by norm_num) hd']
      exact_mod_cast (by omega : 1 * d ≤ n % d * 2)
    push_cast
    constructor <;> linarith

/-- A tie that goes away from zero goes up. -/
theorem nearest_of_tie {n d m : Nat} (hd : 0 < d) (h : (n : Rat) / d = m + 1 / 2) : nearest n d true = m + 1 := by
  have hd' : (d : Rat) ≠ 0 := by exact_mod_cast hd.ne'
  have htwice : 2 * n = 2 * (m * d) + d := by
    rw [div_eq_iff hd'] at h
    have : (2 * n : Rat) = 2 * (m * d) + d := by rw [h]; ring
    exact_mod_cast this
  obtain ⟨e, rfl⟩ : ∃ e, d = 2 * e := ⟨d / 2, by omega⟩
  obtain rfl : n = e + 2 * e * m := by rw [Nat.mul_comm]; omega
  have hquot : (e + 2 * e * m) / (2 * e) = m := by rw [Nat.add_mul_div_left _ _ hd, Nat.div_eq_of_lt (by omega)]; simp
  have hrest : (e + 2 * e * m) % (2 * e) = e := by rw [Nat.add_mul_mod_self_left, Nat.mod_eq_of_lt (by omega)]
  simp [nearest, hquot, hrest]

@[simp] theorem nearest_zero {d : Nat} (hd : 0 < d) (away : Bool) : nearest 0 d away = 0 := by
  simp [nearest, hd]

/-! ### `ROUND2` -/

/-- The magnitude of `ROUND2` in hundredths. -/
def hundredthsOf (P : Params) (w : Word) : Nat :=
  nearest (100 * f32Significand w * 2 ^ (f32Scale w - 150)) (2 ^ (150 - f32Scale w)) (tieGoesAway P.roundTie w)

/-- `ROUND2` by magnitude and sign, as `f32_eq_ite` gives the value. -/
theorem round2_eq_ite (P : Params) (w : Word) : round2 P w =
    if infMagnitude < magnitude w then .nan
    else if magnitude w = infMagnitude then (if f32Negative w then .negInf else .posInf)
    else .hundredths (if f32Negative w then -(hundredthsOf P w) else hundredthsOf P w) := by
  rcases lt_or_ge (magnitude w) infMagnitude with hfin | hinf
  · rw [if_neg hfin.not_gt, if_neg hfin.ne, round2, if_neg (mt (f32Exponent_eq_255_iff w).1 hfin.not_ge)]
    rfl
  · rw [round2, if_pos ((f32Exponent_eq_255_iff w).2 hinf)]
    simp only [f32Fraction_ne_zero_iff hinf]
    rcases hinf.lt_or_eq with hlt | heq
    · rw [if_pos hlt, if_pos hlt]
    · rw [if_neg heq.not_lt, if_neg heq.not_lt, if_pos heq.symm]

/-- The quotient that `ROUND2` rounds is a hundred times the value of the magnitude. -/
theorem hundred_gridValue (w : Word) : 100 * gridValue (magnitude w) =
    (100 * f32Significand w * 2 ^ (f32Scale w - 150) : Nat) / (2 ^ (150 - f32Scale w) : Nat) := by
  rw [gridValue_magnitude]
  push_cast
  ring

theorem abs_hundredthsOf_sub_le (P : Params) (w : Word) :
    |(hundredthsOf P w : Rat) - 100 * gridValue (magnitude w)| ≤ 1 / 2 := by
  rw [hundred_gridValue]
  exact abs_nearest_sub_le _ (by positivity) _

theorem hundredthsOf_of_zero {P : Params} {w : Word} (h : magnitude w = 0) : hundredthsOf P w = 0 := by
  simp [hundredthsOf, (f32Significand_eq_zero_iff w).2 h]

/-- Under the default rule a tie of the magnitude goes up (43_decode_frame.md R127 item 2). -/
theorem hundredthsOf_of_tie {P : Params} {w : Word} {m : Nat} (hrule : P.roundTie = .awayFromZero)
    (h : 100 * gridValue (magnitude w) = m + 1 / 2) : hundredthsOf P w = m + 1 := by
  rw [hundred_gridValue] at h
  rw [hundredthsOf, hrule]
  exact nearest_of_tie (by positivity) h

/-- A finite value, minus zero counting as 0, is rounded to hundredths with its sign. -/
theorem round2_of_finite (P : Params) {w : Word} {y : Rat} (h : f32 w = .fin y ∨ (f32 w = .negZero ∧ y = 0)) :
    round2 P w = .hundredths (if f32Negative w then -(hundredthsOf P w) else hundredthsOf P w) := by
  obtain ⟨hfin, -⟩ := value_of_finite h
  rw [round2_eq_ite, if_neg hfin.not_gt, if_neg hfin.ne]

/-- Settles O45: half a hundredth for the magnitude, and the sign; the infinities and NaN by their magnitudes. -/
theorem floatIsRoundedToANearestHundredth : Obligations.FloatIsRoundedToANearestHundredth := by
  intro s w d
  refine ⟨round2 s.params w, exec_renderValue_eq_respond _ d s,
    fun x hx => ⟨_, round2_of_finite s.params (.inl hx), ?_⟩, fun h => ?_, fun h => ?_, fun h => ?_, fun h => ?_⟩
  · obtain ⟨-, hv⟩ := value_of_finite (.inl hx)
    have hnear := abs_hundredthsOf_sub_le s.params w
    rw [hv, f32Sign]
    split_ifs
    · rw [← abs_neg]
      push_cast
      ring_nf at hnear ⊢
      exact hnear
    · simpa using hnear
  · have hm : magnitude w = 0 := by
      rw [f32_eq_ite] at h
      split_ifs at h with _ _ _ hz
      exact hz.2
    rw [round2_of_finite s.params (.inr ⟨h, rfl⟩), hundredthsOf_of_zero hm]
    simp
  all_goals
    rw [f32_eq_ite] at h
    rw [round2_eq_ite]
    split_ifs at h ⊢
    rfl

/-- Settles O46: the tie of the magnitude goes up; the sign of the value is that of the pattern. -/
theorem defaultTieGoesAwayFromZero : Obligations.DefaultTieGoesAwayFromZero := by
  intro P w x m hrule hx
  obtain ⟨-, hv⟩ := value_of_finite (.inl hx)
  have hv0 := gridValue_nonneg (magnitude w)
  have hm0 : (0 : Rat) ≤ m := Nat.cast_nonneg m
  rw [round2_of_finite P (.inl hx)]
  rw [f32Sign] at hv
  split_ifs at hv ⊢
  · refine ⟨fun h => absurd h (by linarith), fun h => ?_⟩
    rw [hundredthsOf_of_tie (m := m) hrule (by linarith), Nat.cast_add, Nat.cast_one]
  · refine ⟨fun h => ?_, fun h => absurd h (by linarith)⟩
    rw [hundredthsOf_of_tie (m := m) hrule (by linarith), Nat.cast_add, Nat.cast_one]

end Sys2Proof.Machine
end

section
/-!
PROOFS. 44_text_forms.md R150, R151: the cleaned text of a transcript. Whitespace cuts a text into parts that are
cleaned one by one, and a part without whitespace loses its mark.
-/

namespace Sys2Proof.Machine

/-! ### Tokens -/

/-- Whitespace between two texts separates their tokens. -/
theorem tokens_append_blank (t u : Text) {c : Char} (hc : isBlank c = true) :
    tokens (t ++ c :: u) = tokens t ++ tokens u := by
  rw [tokens, List.splitOnP_append_cons _ _ hc, List.filter_append]
  rfl

/-- A text without whitespace is one token, unless it is empty. -/
theorem tokens_of_no_blank {t : Text} (h : ∀ c ∈ t, isBlank c = false) :
    tokens t = if t = [] then [] else [t] := by
  rw [tokens, List.splitOnP_eq_singleton h]
  by_cases ht : t = [] <;> simp [ht]

@[simp] theorem cleaned_nil : cleaned [] = [] := rfl

theorem cleaned_append_blank (t u : Text) {c : Char} (hc : isBlank c = true) :
    cleaned (t ++ c :: u) = cleaned t ++ cleaned u := by
  simp [cleaned, tokens_append_blank t u hc]

theorem cleaned_cons_blank (u : Text) {c : Char} (hc : isBlank c = true) : cleaned (c :: u) = cleaned u := by
  have := cleaned_append_blank [] u hc
  simpa [cleaned, tokens] using this

theorem cleaned_of_no_blank {t : Text} (h : ∀ c ∈ t, isBlank c = false) : cleaned t = dropMark t := by
  rw [cleaned, tokens_of_no_blank h]
  by_cases ht : t = []
  · subst ht; rfl
  · simp [ht]

/-- Whitespace before a text is dropped. -/
theorem cleaned_blanks_append {b : Text} (hb : ∀ c ∈ b, isBlank c = true) (t : Text) :
    cleaned (b ++ t) = cleaned t := by
  induction b with
  | nil => rfl
  | cons c b ih =>
    rw [List.forall_mem_cons] at hb
    rw [List.cons_append, cleaned_cons_blank _ hb.1, ih hb.2]

/-- A text ends a token where it is empty or begins with whitespace. -/
def EndsToken (t : Text) : Prop := ∀ c ∈ t.head?, isBlank c = true

/-- A text without whitespace before what ends it is a token, and loses its mark. -/
theorem cleaned_token_append {u t : Text} (hu : ∀ c ∈ u, isBlank c = false) (ht : EndsToken t) :
    cleaned (u ++ t) = dropMark u ++ cleaned t := by
  cases t with
  | nil => rw [List.append_nil, cleaned_of_no_blank hu, cleaned_nil, List.append_nil]
  | cons c t =>
    have hc : isBlank c = true := ht c rfl
    rw [cleaned_append_blank u t hc, cleaned_cons_blank t hc, cleaned_of_no_blank hu]

/-! ### Marks -/

/-- What does not begin with a zero and a mark letter keeps all its characters. -/
theorem dropMark_of_no_mark {u : Text} (h : ∀ c ∈ u, c ≠ 'x' ∧ c ≠ 'X') : dropMark u = u := by
  unfold dropMark
  split
  · exact absurd rfl (h 'x' (by simp)).1
  · exact absurd rfl (h 'X' (by simp)).2
  · rfl

/-- Every character but the zero and the letter of a mark stays. -/
theorem mem_dropMark_of_ne {u : Text} {c : Char} (hc : c ∈ u) (h0 : c ≠ '0') (hx : c ≠ 'x') (hX : c ≠ 'X') :
    c ∈ dropMark u := by
  unfold dropMark
  split
  · simpa [h0, hx] using hc
  · simpa [h0, hX] using hc
  · exact hc

/-- Only a zero begins a mark. -/
theorem dropMark_cons_of_ne {d : Char} (hd : d ≠ '0') (u : Text) : dropMark (d :: u) = d :: u := by
  unfold dropMark
  split <;> simp_all

/-- A mark is two characters: what stands behind them stays. -/
theorem mem_dropMark_of_mem {u : Text} {c : Char} (hc : c ∈ u) (d e : Char) : c ∈ dropMark (d :: e :: u) := by
  unfold dropMark
  split <;> simp_all

/-- A mark letter stays in a token unless a zero alone stands before it. -/
theorem mem_dropMark_append {u : Text} (hu : u ≠ ['0']) {c : Char} (h0 : c ≠ '0') (v : Text) :
    c ∈ dropMark (u ++ c :: v) := by
  match u, hu with
  | [], _ => simp [dropMark_cons_of_ne h0]
  | [d], hu => simp [dropMark_cons_of_ne (fun h : d = '0' => hu (by rw [h]))]
  | d :: e :: u, _ => exact mem_dropMark_of_mem (by simp) d e

/-! ### The token around a character -/

/-- A text is empty or ends with whitespace, then a text without whitespace. -/
theorem exists_last_token (u : Text) : ∃ a w, u = a ++ w ∧ (∀ c ∈ w, isBlank c = false) ∧
    ∀ b ∈ a.getLast?, isBlank b = true := by
  induction u using List.reverseRecOn with
  | nil => exact ⟨[], [], rfl, by simp, by simp⟩
  | append_singleton u c ih =>
    cases hc : isBlank c with
    | true => exact ⟨u ++ [c], [], by simp, by simp, by simpa using hc⟩
    | false =>
      obtain ⟨a, w, rfl, hw, ha⟩ := ih
      refine ⟨a, w ++ [c], by simp, fun d hd => ?_, ha⟩
      rcases List.mem_append.1 hd with hd | hd
      · exact hw d hd
      · rwa [List.mem_singleton.1 hd]

/-- A text is one without whitespace, then one that ends a token. -/
theorem exists_first_token (v : Text) : ∃ w z, v = w ++ z ∧ (∀ c ∈ w, isBlank c = false) ∧ EndsToken z := by
  induction v with
  | nil => exact ⟨[], [], rfl, by simp, by simp [EndsToken]⟩
  | cons c v ih =>
    cases hc : isBlank c with
    | true => exact ⟨[], c :: v, rfl, by simp, by simpa [EndsToken] using hc⟩
    | false =>
      obtain ⟨w, z, rfl, hw, hz⟩ := ih
      exact ⟨c :: w, z, rfl, List.forall_mem_cons.2 ⟨hc, hw⟩, hz⟩

/-- A text that is empty or ends with whitespace is cleaned apart from what follows. -/
theorem cleaned_append {a : Text} (ha : ∀ b ∈ a.getLast?, isBlank b = true) (t : Text) :
    cleaned (a ++ t) = cleaned a ++ cleaned t := by
  induction a using List.reverseRecOn with
  | nil => rfl
  | append_singleton a b =>
    have hb : isBlank b = true := ha b (by simp)
    rw [cleaned_append_blank a [] hb, List.append_assoc, List.singleton_append, cleaned_append_blank a t hb]
    simp

/-- A character that is no whitespace stands in a token, which is cleaned by itself. -/
theorem exists_token_around (u v : Text) {c : Char} (hc : isBlank c = false) : ∃ a w x : Text, u = a ++ w ∧
    (∀ b ∈ a.getLast?, isBlank b = true) ∧ ∀ d ∈ dropMark (w ++ c :: x), d ∈ cleaned (u ++ c :: v) := by
  obtain ⟨a, w, rfl, hw, ha⟩ := exists_last_token u
  obtain ⟨x, z, rfl, hx, hz⟩ := exists_first_token v
  refine ⟨a, w, x, rfl, ha, fun d hd => ?_⟩
  have htoken : ∀ d ∈ w ++ c :: x, isBlank d = false := by
    simp only [List.mem_append, List.mem_cons]
    rintro d (hd | rfl | hd)
    exacts [hw d hd, hc, hx d hd]
  have hsplit : a ++ w ++ c :: (x ++ z) = a ++ ((w ++ c :: x) ++ z) := by simp
  rw [hsplit, cleaned_append ha, cleaned_token_append htoken hz]
  simp [hd]

/-! ### Texts without a mark -/

/-- The tokens run together are the text without its whitespace. -/
theorem flatten_tokens (t : Text) : (tokens t).flatten = t.filter fun c => !isBlank c := by
  rw [tokens, List.flatten_filter_not_isEmpty]
  induction t with
  | nil => simp
  | cons c t ih =>
    rw [List.splitOnP_cons_eq_if_modifyHead]
    cases hc : isBlank c with
    | true => simp [hc, ih]
    | false =>
      obtain ⟨h, tl, hsplit⟩ := List.exists_cons_of_ne_nil (List.splitOnP_ne_nil isBlank t)
      rw [hsplit] at ih ⊢
      simpa [hc] using ih

/-- Without mark letters cleaning drops the whitespace alone. -/
theorem cleaned_of_no_mark {t : Text} (h : ∀ c ∈ t, c ≠ 'x' ∧ c ≠ 'X') :
    cleaned t = t.filter fun c => !isBlank c := by
  have hid : ∀ u ∈ tokens t, dropMark u = u := fun u hu => dropMark_of_no_mark fun c hc => by
    have hmem : c ∈ (tokens t).flatten := List.mem_flatten.2 ⟨u, hu, hc⟩
    rw [flatten_tokens] at hmem
    exact h c (List.mem_of_mem_filter hmem)
  rw [cleaned, List.map_congr_left hid, List.map_id', flatten_tokens]

/-! ### Pieces -/

/-- Whitespace, perhaps a mark, and digits. -/
def IsPiece (p : Text × Text × Text) : Prop :=
  (∀ c ∈ p.1, isBlank c = true) ∧ p.2.1 ∈ [[], ['0', 'x'], ['0', 'X']] ∧ ∀ c ∈ p.2.2, (hexValue c).isSome = true

/-- The text of pieces, one after the other. -/
def piecesText (pieces : List (Text × Text × Text)) : Text := (pieces.map fun p => p.1 ++ p.2.1 ++ p.2.2).flatten

theorem hexValue_of_isBlank {c : Char} (h : isBlank c = true) : hexValue c = none := by
  simp only [isBlank, Bool.or_eq_true, beq_iff_eq] at h
  rcases h with ((rfl | rfl) | rfl) | rfl <;> decide

/-- A digit is no whitespace and no mark letter. -/
theorem not_blank_of_digit {c : Char} (h : (hexValue c).isSome = true) : isBlank c = false ∧ c ≠ 'x' ∧ c ≠ 'X' := by
  refine ⟨Bool.eq_false_of_not_eq_true fun hb => ?_, ?_, ?_⟩
  · rw [hexValue_of_isBlank hb] at h
    cases h
  · rintro rfl
    exact absurd h (by decide)
  · rintro rfl
    exact absurd h (by decide)

/-- A marked token of digits has no whitespace, and its mark is what it loses. -/
theorem IsPiece.token {p : Text × Text × Text} (hp : IsPiece p) :
    (∀ c ∈ p.2.1 ++ p.2.2, isBlank c = false) ∧ dropMark (p.2.1 ++ p.2.2) = p.2.2 := by
  obtain ⟨-, hmark, hdigits⟩ := hp
  have hd : ∀ c ∈ p.2.2, isBlank c = false := fun c hc => (not_blank_of_digit (hdigits c hc)).1
  simp only [List.mem_cons, List.not_mem_nil, or_false] at hmark
  have hm : ∀ c ∈ p.2.1, isBlank c = false := by rcases hmark with h | h | h <;> simp [h, isBlank]
  refine ⟨fun c hc => (List.mem_append.1 hc).elim (hm c) (hd c), ?_⟩
  rcases hmark with h | h | h <;> rw [h]
  · exact dropMark_of_no_mark fun c hc => (not_blank_of_digit (hdigits c hc)).2
  · rfl
  · rfl

/-- Pieces of which all but the first begin with whitespace are cleaned to their digits. -/
theorem cleaned_pieces {pieces : List (Text × Text × Text)} (hp : ∀ p ∈ pieces, IsPiece p)
    (hsep : ∀ p ∈ pieces.tail, p.1 ≠ []) {tail : Text} (htail : ∀ c ∈ tail, isBlank c = true) :
    cleaned (piecesText pieces ++ tail) = (pieces.map fun p => p.2.2).flatten := by
  induction pieces with
  | nil =>
    have := cleaned_blanks_append htail []
    simpa [piecesText] using this
  | cons p ps ih =>
    obtain ⟨hfirst, hrest⟩ := List.forall_mem_cons.1 hp
    obtain ⟨hblank, hdrop⟩ := hfirst.token
    have hends : EndsToken (piecesText ps ++ tail) := by
      cases ps with
      | nil => exact fun c hc => htail c (List.mem_of_mem_head? hc)
      | cons q qs =>
        obtain ⟨b, bs, hb⟩ := List.exists_cons_of_ne_nil (hsep q (by simp))
        have hqb : isBlank b = true := (hrest q (by simp)).1 b (by simp [hb])
        intro c hc
        simp [piecesText, hb] at hc
        exact hc ▸ hqb
    have hsplit : piecesText (p :: ps) ++ tail = p.1 ++ ((p.2.1 ++ p.2.2) ++ (piecesText ps ++ tail)) := by
      simp [piecesText]
    rw [hsplit, cleaned_blanks_append hfirst.1, cleaned_token_append hblank hends, hdrop,
      ih hrest fun q hq => hsep q (List.mem_of_mem_tail hq)]
    simp

end Sys2Proof.Machine
end

section
/-!
PROOFS. 44_text_forms.md R150, R152; 60_exceptions.md R163: the frame that digits make up. Digit values, bytes and
frames are three writings of the same bits, and each can be read back from the next.
-/

namespace Sys2Proof.Machine

/-! ### Digit values and bytes -/

/-- The two halves of a byte, the more significant first. -/
def nibbles (b : Byte) : List (BitVec 4) := [b.extractLsb' 4 4, b.extractLsb' 0 4]

theorem nibbles_append (a b : BitVec 4) : nibbles (a ++ b) = [a, b] := by
  rw [nibbles, BitVec.extractLsb'_append_eq_left, BitVec.extractLsb'_append_eq_right]

theorem append_nibbles (b : Byte) : (b.extractLsb' 4 4 ++ b.extractLsb' 0 4 : BitVec 8) = b := by
  have h : b.extractLsb' 4 4 ++ b.extractLsb' 0 4 = b.extractLsb' 0 8 :=
    BitVec.extractLsb'_append_extractLsb'_eq_extractLsb' rfl
  rw [h, BitVec.extractLsb'_eq_self]

/-- The halves of bytes pair to the bytes. -/
theorem pairBytes_flatMap_nibbles (bytes : List Byte) : pairBytes (bytes.flatMap nibbles) = some bytes := by
  induction bytes with
  | nil => rfl
  | cons b bytes ih => simp [nibbles, pairBytes, ih, append_nibbles] at ih ⊢

/-- Digit values that pair to bytes are the halves of these bytes. -/
theorem eq_flatMap_of_pairBytes {digits : List (BitVec 4)} {bytes : List Byte}
    (h : pairBytes digits = some bytes) : digits = bytes.flatMap nibbles := by
  induction digits using pairBytes.induct generalizing bytes with
  | case1 => cases h; rfl
  | case2 a => cases h
  | case3 a b rest ih =>
    obtain ⟨bytes', hrest, rfl⟩ := Option.map_eq_some_iff.1 h
    rw [List.flatMap_cons, nibbles_append, ← ih hrest]
    rfl

/-- Digit values in even number pair to half as many bytes. -/
theorem exists_pairBytes {digits : List (BitVec 4)} {k : Nat} (h : digits.length = 2 * k) :
    ∃ bytes, pairBytes digits = some bytes ∧ bytes.length = k := by
  induction digits using pairBytes.induct generalizing k with
  | case1 => exact ⟨[], rfl, by simp at h ⊢; omega⟩
  | case2 a => simp at h; omega
  | case3 a b rest ih =>
    simp only [List.length_cons] at h
    obtain ⟨bytes, hrest, hlen⟩ := ih (k := k - 1) (by omega)
    exact ⟨(a ++ b) :: bytes, by rw [pairBytes, hrest]; rfl, by rw [List.length_cons]; omega⟩

/-! ### Bytes and frames -/

/-- The four bytes of a word, the most significant first. -/
def wordBytes (w : Word) : List Byte := [byteOf w 3, byteOf w 2, byteOf w 1, byteOf w 0]

/-- The twelve bytes of a frame, identifier first. -/
def frameBytes (f : CanFrame) : List Byte := wordBytes f.id ++ f.data.toList

theorem wordBytes_be32 (b0 b1 b2 b3 : Byte) : wordBytes (be32 b0 b1 b2 b3) = [b0, b1, b2, b3] := by
  simp only [wordBytes, byteOf_eq_ofNat, toNat_be32, List.cons.injEq, ← BitVec.toNat_inj, BitVec.toNat_ofNat,
    and_true, Nat.reduceMul]
  omega

theorem frameOfBytes_frameBytes (f : CanFrame) : frameOfBytes (frameBytes f) = some f := by
  have hid := be32_byteOf f.id
  simp [frameBytes, wordBytes, frameOfBytes, hid]

theorem eq_frameBytes_of_frameOfBytes {bytes : List Byte} {f : CanFrame} (h : frameOfBytes bytes = some f) :
    bytes = frameBytes f := by
  unfold frameOfBytes at h
  split at h
  · obtain ⟨data, hdata, rfl⟩ := Option.map_eq_some_iff.1 h
    rw [frameBytes, wordBytes_be32, payloadOf_toList hdata]
    rfl
  · cases h

/-- Twelve bytes are a frame. -/
theorem exists_frameOfBytes {bytes : List Byte} (h : bytes.length = 12) : ∃ f, frameOfBytes bytes = some f := by
  match bytes, h with
  | b0 :: b1 :: b2 :: b3 :: rest, h =>
    have hlen : rest.length = 8 := by simpa using h
    obtain ⟨data, hdata⟩ := Option.ne_none_iff_exists'.1 (mt (payloadOf_eq_none_iff rest).1 (not_not.2 hlen))
    exact ⟨_, by rw [frameOfBytes, hdata]; rfl⟩

/-! ### Texts and digit values -/

/-- Digits are among the first 128 characters. -/
theorem toNat_lt_of_digit {c : Char} (h : (hexValue c).isSome = true) : c.toNat < 128 := by
  have hle {d : Char} (hd : c ≤ d) : c.toNat ≤ d.toNat := hd
  unfold hexValue at h
  split_ifs at h with h1 h2 h3
  · exact (hle h1.2).trans_lt (by decide)
  · exact (hle h2.2).trans_lt (by decide)
  · exact (hle h3.2).trans_lt (by decide)
  · cases h

/-- A digit in upper case is the digit its value is written with. -/
theorem toUpper_of_hexValue {c : Char} {v : BitVec 4} (h : hexValue c = some v) :
    c.toUpper = hexDigit true v.toNat := by
  have hall : ∀ n : Fin 128, ∀ v ∈ hexValue (Char.ofNat n), (Char.ofNat n).toUpper = hexDigit true v.toNat := by
    decide
  have hc := hall ⟨c.toNat, toNat_lt_of_digit (by rw [h]; rfl)⟩ v
  rw [Char.ofNat_toNat] at hc
  exact hc h

/-- The upper-case digits of digit values. -/
def digitsText (digits : List (BitVec 4)) : Text := digits.map fun d => hexDigit true d.toNat

theorem digitsText_injective : Function.Injective digitsText := by
  refine List.map_injective_iff.2 fun a b h => ?_
  have hread := congrArg hexValue h
  simpa [hexValue_hexDigit true a.isLt, hexValue_hexDigit true b.isLt] using hread

theorem hexDigitsIn_cons {c : Char} {v : BitVec 4} (h : hexValue c = some v) (t : Text) :
    hexDigitsIn (c :: t) = v :: hexDigitsIn t := List.filterMap_cons_some h

/-- A text of digits in upper case is written with their values. -/
theorem map_toUpper_of_digits {t : Text} (h : ∀ c ∈ t, (hexValue c).isSome = true) :
    t.map Char.toUpper = digitsText (hexDigitsIn t) := by
  induction t with
  | nil => rfl
  | cons c t ih =>
    obtain ⟨hc, ht⟩ := List.forall_mem_cons.1 h
    obtain ⟨v, hv⟩ := Option.isSome_iff_exists.1 hc
    rw [List.map_cons, ih ht, toUpper_of_hexValue hv, hexDigitsIn_cons hv]
    rfl

theorem length_hexDigitsIn_of_digits {t : Text} (h : ∀ c ∈ t, (hexValue c).isSome = true) :
    (hexDigitsIn t).length = t.length := by
  have := congrArg List.length (map_toUpper_of_digits h)
  simpa [digitsText] using this.symm

/-- The two digits of a byte are those of its halves. -/
theorem hex2_eq_digitsText (b : Byte) : hex2 b = digitsText (nibbles b) := by
  simp [hex2, hexFixed, digitsText, nibbles, Nat.shiftRight_eq_div_pow]

/-- Two digits more are those of the lowest byte. -/
theorem hexFixed_add_two (upper : Bool) (k n : Nat) :
    hexFixed upper (k + 2) n = hexFixed upper k (n / 256) ++ hexFixed upper 2 (n % 256) := by
  have hquot : n / 16 / 16 = n / 256 := by omega
  have hhigh : n % 256 / 16 % 16 = n / 16 % 16 := by omega
  have hlow : n % 256 % 16 = n % 16 := by omega
  simp [hexFixed, hquot, hhigh, hlow]

/-- The eight digits of a word are those of its bytes. -/
theorem hex8_eq_flatMap (w : Word) : hex8 w = (wordBytes w).flatMap hex2 := by
  rw [hex8, hexFixed_add_two, hexFixed_add_two, hexFixed_add_two, hexFixed_add_two]
  simp [wordBytes, hex2, byteOf_eq_ofNat, hexFixed, Nat.div_div_eq_div_mul]

/-- The digits of a frame: eight of the identifier, two of each byte (44_text_forms.md R152). -/
def frameText (f : CanFrame) : Text := hex8 f.id ++ (f.data.toList.map hex2).flatten

theorem frameText_eq_digitsText (f : CanFrame) : frameText f = digitsText ((frameBytes f).flatMap nibbles) := by
  have hbytes (bytes : List Byte) : bytes.flatMap hex2 = digitsText (bytes.flatMap nibbles) := by
    rw [digitsText, List.map_flatMap]
    exact congrArg (bytes.flatMap ·) (funext hex2_eq_digitsText)
  rw [frameText, hex8_eq_flatMap, ← List.flatMap_def, ← List.flatMap_append, hbytes]
  rfl

/-- The digits of a frame by the table of digits, as the statements write them. -/
theorem frameText_eq_getD (f : CanFrame) : frameText f =
    ((List.range 8).map fun k => "0123456789ABCDEF".toList.getD (f.id.toNat / 16 ^ (7 - k) % 16) '?') ++
    (f.data.toList.map fun b => ["0123456789ABCDEF".toList.getD (b.toNat / 16) '?',
      "0123456789ABCDEF".toList.getD (b.toNat % 16) '?']).flatten := by
  rw [frameText, hex8_eq_map_getD, funext hex2_eq_getD]

theorem length_frameText (f : CanFrame) : (frameText f).length = 24 := by
  simp [frameText, Function.comp_def]

/-! ### The transcript -/

/-- The values of digits are read one by one. -/
theorem mapM_hexValue_of_digits {t : Text} (h : ∀ c ∈ t, (hexValue c).isSome = true) :
    t.mapM hexValue = some (hexDigitsIn t) := by
  induction t with
  | nil => rfl
  | cons c t ih =>
    obtain ⟨hc, ht⟩ := List.forall_mem_cons.1 h
    obtain ⟨v, hv⟩ := Option.isSome_iff_exists.1 hc
    rw [List.mapM_cons, hv, ih ht, hexDigitsIn_cons hv]
    rfl

theorem mapM_hexValue_eq_none {t : Text} {c : Char} (hc : c ∈ t) (hv : hexValue c = none) :
    t.mapM hexValue = none := by
  induction t with
  | nil => cases hc
  | cons d t ih =>
    rw [List.mapM_cons]
    rcases List.mem_cons.1 hc with rfl | hc
    · rw [hv]; rfl
    · rw [ih hc]
      cases hexValue d <;> rfl

/-- Another character than a digit in the cleaned text makes the text no transcript. -/
theorem parseTranscriptOf_eq_none {t : Text} {c : Char} (hc : c ∈ cleaned t) (hv : hexValue c = none) :
    parseTranscriptOf t = none := by
  rw [parseTranscriptOf, mapM_hexValue_eq_none hc hv]
  rfl

/-- A text that is cleaned to digits is the transcript of the frame with these digits (44_text_forms.md R150). -/
theorem parseTranscriptOf_eq_some_iff {t : Text} (h : ∀ c ∈ cleaned t, (hexValue c).isSome = true) (f : CanFrame) :
    parseTranscriptOf t = some f ↔ (cleaned t).map Char.toUpper = frameText f := by
  rw [map_toUpper_of_digits h, frameText_eq_digitsText, digitsText_injective.eq_iff, parseTranscriptOf,
    mapM_hexValue_of_digits h, Option.bind_some]
  refine ⟨fun hp => ?_, fun hp => ?_⟩
  · obtain ⟨bytes, hbytes, hframe⟩ := Option.bind_eq_some_iff.1 hp
    rw [eq_flatMap_of_pairBytes hbytes, eq_frameBytes_of_frameOfBytes hframe]
  · rw [hp, pairBytes_flatMap_nibbles, Option.bind_some, frameOfBytes_frameBytes]

/-- A text that is cleaned to digits is a transcript exactly when they are 24. -/
theorem exists_parseTranscriptOf_iff {t : Text} (h : ∀ c ∈ cleaned t, (hexValue c).isSome = true) :
    (∃ f, parseTranscriptOf t = some f) ↔ (cleaned t).length = 24 := by
  refine ⟨fun ⟨f, hf⟩ => ?_, fun hlen => ?_⟩
  · have := congrArg List.length ((parseTranscriptOf_eq_some_iff h f).1 hf)
    simpa [length_frameText] using this
  · obtain ⟨bytes, hbytes, hcount⟩ := exists_pairBytes (k := 12) ((length_hexDigitsIn_of_digits h).trans hlen)
    obtain ⟨f, hf⟩ := exists_frameOfBytes hcount
    exact ⟨f, by rw [parseTranscriptOf, mapM_hexValue_of_digits h, Option.bind_some, hbytes, Option.bind_some, hf]⟩

/-! ### PARSE_TRANSCRIPT -/

/-- PARSE_TRANSCRIPT answers a frame exactly when the text is its transcript. -/
theorem exec_parseTranscript_eq_canFrame_iff (t : Text) (s : State) (f : CanFrame) :
    exec (.parseTranscript t) s = respond (.canFrame f) s ↔ parseTranscriptOf t = some f := by
  change execParseTranscript t s = _ ↔ _
  cases h : parseTranscriptOf t with
  | none => rw [execParseTranscript_none h, raise, respond_inj]; simp
  | some g => rw [execParseTranscript_some h, respond_inj, Response.canFrame.injEq, Option.some.injEq]

theorem exec_parseTranscript_of_none {t : Text} (h : parseTranscriptOf t = none) (s : State) :
    exec (.parseTranscript t) s = respond (.fault .formatError) s := execParseTranscript_none h s

/-! ### The obligations -/

/-- Hexadecimal digits in either case, as the statements write them. -/
theorem isSome_hexValue_of_mem : ∀ c ∈ "0123456789ABCDEFabcdef".toList, (hexValue c).isSome = true :=
  List.all_eq_true.1 (by decide)

theorem isBlank_of_mem : ∀ c ∈ [' ', '\t', '\r', '\n'], isBlank c = true := List.all_eq_true.1 (by decide)

/-- Pieces are cleaned to digits. -/
theorem digits_of_cleaned_pieces {pieces : List (Text × Text × Text)} (hp : ∀ p ∈ pieces, IsPiece p) :
    ∀ c ∈ (pieces.map fun p => p.2.2).flatten, (hexValue c).isSome = true := by
  intro c hc
  obtain ⟨u, hu, hcu⟩ := List.mem_flatten.1 hc
  obtain ⟨p, hmem, rfl⟩ := List.mem_map.1 hu
  obtain ⟨-, -, hdigits⟩ := hp p hmem
  exact hdigits c hcu

/-- Every character of a frame's text is a digit. -/
theorem digits_of_frameText {f : CanFrame} : ∀ c ∈ frameText f, (hexValue c).isSome = true := by
  rw [frameText_eq_digitsText]
  intro c hc
  obtain ⟨v, -, rfl⟩ := List.mem_map.1 hc
  rw [hexValue_hexDigit true v.isLt]
  rfl

/-- The digits of a frame are in upper case. -/
theorem map_toUpper_frameText (f : CanFrame) : (frameText f).map Char.toUpper = frameText f := by
  rw [frameText_eq_digitsText, digitsText, List.map_map]
  refine List.map_congr_left fun v _ => ?_
  have h := toUpper_of_hexValue (hexValue_hexDigit true v.isLt)
  simpa using h

/-- A text of pieces with the digits of a frame is answered with the frame. -/
theorem exec_parseTranscript_pieces {pieces : List (Text × Text × Text)} (hp : ∀ p ∈ pieces, IsPiece p)
    (hsep : ∀ p ∈ pieces.tail, p.1 ≠ []) {f : CanFrame} (hf : (pieces.map fun p => p.2.2).flatten = frameText f)
    (s : State) : exec (.parseTranscript (piecesText pieces)) s = respond (.canFrame f) s := by
  have hclean := cleaned_pieces hp hsep (tail := []) (by simp)
  rw [List.append_nil] at hclean
  rw [exec_parseTranscript_eq_canFrame_iff, parseTranscriptOf_eq_some_iff (hclean ▸ digits_of_cleaned_pieces hp),
    hclean, hf, map_toUpper_frameText]

/-- The first spelling: the identifier and the bytes run together (44_text_forms.md R152). -/
def runTogetherPieces (f : CanFrame) : List (Text × Text × Text) :=
  [([], [], hex8 f.id), ([' '], [], (f.data.toList.map hex2).flatten)]

/-- The second spelling: a mark, and a space before every byte (44_text_forms.md R152). -/
def spacedPieces (f : CanFrame) : List (Text × Text × Text) :=
  ([], ['0', 'x'], hex8 f.id) :: f.data.toList.map fun b => ([' '], [], hex2 b)

theorem isPiece_of_mem_runTogetherPieces {f : CanFrame} : ∀ p ∈ runTogetherPieces f, IsPiece p := by
  simp only [runTogetherPieces, List.forall_mem_cons]
  exact ⟨⟨by simp, by simp, fun c hc => digits_of_frameText (f := f) c (List.mem_append_left _ hc)⟩,
    ⟨by simp [isBlank], by simp, fun c hc => digits_of_frameText (f := f) c (List.mem_append_right _ hc)⟩, by simp⟩

theorem isPiece_of_mem_spacedPieces {f : CanFrame} : ∀ p ∈ spacedPieces f, IsPiece p := by
  simp only [spacedPieces, List.forall_mem_cons, List.forall_mem_map]
  refine ⟨⟨by simp, by simp, fun c hc => digits_of_frameText (f := f) c (List.mem_append_left _ hc)⟩,
    fun b hb => ⟨by simp [isBlank], by simp, fun c hc => digits_of_frameText (f := f) c ?_⟩⟩
  exact List.mem_append_right _ (List.mem_flatten.2 ⟨hex2 b, List.mem_map_of_mem hb, hc⟩)

theorem piecesText_runTogetherPieces (f : CanFrame) : piecesText (runTogetherPieces f) =
    hex8 f.id ++ " ".toList ++ (f.data.toList.map hex2).flatten := by
  simp [piecesText, runTogetherPieces]

theorem piecesText_spacedPieces (f : CanFrame) : piecesText (spacedPieces f) =
    "0x".toList ++ hex8 f.id ++ " ".toList ++ hexBytesText f.data.toList := by
  have hblocks : piecesText (spacedPieces f) = ['0', 'x'] ++ hex8 f.id ++ (f.data.toList.map spacedHex2).flatten := by
    rw [piecesText, spacedPieces, List.map_cons, List.map_map, List.flatten_cons]
    rfl
  obtain ⟨b, p, hdata⟩ := List.exists_cons_of_length_pos (l := f.data.toList) (by simp)
  rw [hblocks, hdata, ← space_hexBytesText_cons]
  simp

/-- Settles O47: both spellings are pieces with the digits of the frame. -/
theorem transcriptOfAFrameParsesToIt : Obligations.TranscriptOfAFrameParsesToIt := by
  intro s f
  rw [← piecesText_runTogetherPieces, ← piecesText_spacedPieces]
  exact ⟨exec_parseTranscript_pieces isPiece_of_mem_runTogetherPieces (by simp [runTogetherPieces])
      (by simp [runTogetherPieces, frameText]) s,
    exec_parseTranscript_pieces isPiece_of_mem_spacedPieces (by simp [spacedPieces])
      (by simp [spacedPieces, frameText, Function.comp_def]) s⟩

/-- On digits and whitespace cleaning keeps the digits. -/
theorem cleaned_of_digits_and_blanks {t : Text} (h : ∀ c ∈ t, isBlank c = true ∨ (hexValue c).isSome = true) :
    cleaned t = t.filter fun c => (hexValue c).isSome := by
  have hcases : ∀ c ∈ t, (c ≠ 'x' ∧ c ≠ 'X') ∧ (!isBlank c) = (hexValue c).isSome := fun c hc => by
    rcases h c hc with hb | hd
    · refine ⟨⟨?_, ?_⟩, ?_⟩
      · rintro rfl
        exact absurd hb (by decide)
      · rintro rfl
        exact absurd hb (by decide)
      · rw [hexValue_of_isBlank hb, hb]
        rfl
    · obtain ⟨hb, hx⟩ := not_blank_of_digit hd
      exact ⟨hx, by rw [hb, hd]; rfl⟩
  rw [cleaned_of_no_mark fun c hc => (hcases c hc).1]
  exact List.filter_congr fun c hc => (hcases c hc).2

/-- Settles O48: the text's cleaned form decides; a stray letter or another character stays in it. -/
theorem transcriptHasTwentyFourDigits : Obligations.TranscriptHasTwentyFourDigits := by
  intro s t
  have hframe (f : CanFrame) := exec_parseTranscript_eq_canFrame_iff t s f
  refine ⟨?_, fun h => ?_, fun u v c ht hc hstray => ?_, fun c hc hblank hdigit hx hX => ?_, rfl⟩
  · cases hp : parseTranscriptOf t with
    | none => exact .inr (exec_parseTranscript_of_none hp s)
    | some f => exact .inl ⟨f, (hframe f).2 hp⟩
  · have hclean := cleaned_of_digits_and_blanks h
    have hdigits : ∀ c ∈ cleaned t, (hexValue c).isSome = true := fun c hc => by
      rw [hclean] at hc
      exact (List.mem_filter.1 hc).2
    refine ⟨?_, fun f => ?_⟩
    · rw [← hclean]
      exact (exists_congr hframe).trans (exists_parseTranscriptOf_iff hdigits)
    · rw [← hclean, ← frameText_eq_getD]
      exact (hframe f).trans (parseTranscriptOf_eq_some_iff hdigits f)
  · have hletter : isBlank c = false ∧ c ≠ '0' ∧ hexValue c = none := by rcases hc with rfl | rfl <;> decide
    obtain ⟨hblank, h0, hnone⟩ := hletter
    obtain ⟨a, w, x, rfl, ha, hkeep⟩ := exists_token_around u v hblank
    have hw : w ≠ ['0'] := by
      rintro rfl
      obtain ⟨b, hb, hnb⟩ := hstray a rfl
      rw [ha b hb] at hnb
      cases hnb
    exact exec_parseTranscript_of_none (parseTranscriptOf_eq_none (ht ▸ hkeep c (mem_dropMark_append hw h0 x)) hnone) s
  · obtain ⟨u, v, rfl⟩ := List.append_of_mem hc
    obtain ⟨a, w, x, rfl, -, hkeep⟩ := exists_token_around u v hblank
    have hnone : hexValue c = none := by simpa using hdigit
    have h0 : c ≠ '0' := by
      rintro rfl
      exact absurd hnone (by decide)
    exact exec_parseTranscript_of_none
      (parseTranscriptOf_eq_none (hkeep c (mem_dropMark_of_ne (by simp) h0 hx hX)) hnone) s

/-- Settles O50: pieces are cleaned to their digits. -/
theorem transcriptIsReadTokenByToken : Obligations.TranscriptIsReadTokenByToken := by
  intro s pieces tail t digits hpieces hsep htail ht hdigits
  have hp : ∀ p ∈ pieces, IsPiece p := fun p hmem => by
    obtain ⟨hb, hm, hd⟩ := hpieces p hmem
    exact ⟨fun c hc => isBlank_of_mem c (hb c hc), hm, fun c hc => isSome_hexValue_of_mem c (hd c hc)⟩
  have hclean : cleaned t = digits := by
    rw [ht, hdigits]
    exact cleaned_pieces hp hsep fun c hc => isBlank_of_mem c (htail c hc)
  have hall : ∀ c ∈ cleaned t, (hexValue c).isSome = true := by
    rw [hclean, hdigits]
    exact digits_of_cleaned_pieces hp
  refine ⟨fun f => ?_, fun hlen => ?_⟩
  · rw [← frameText_eq_getD, ← hclean]
    exact (exec_parseTranscript_eq_canFrame_iff t s f).trans (parseTranscriptOf_eq_some_iff hall f)
  · refine exec_parseTranscript_of_none (Option.eq_none_iff_forall_ne_some.2 fun f hf => hlen ?_) s
    rw [← hclean]
    exact (exists_parseTranscriptOf_iff hall).1 ⟨f, hf⟩

end Sys2Proof.Machine
end
